-- ==== Sys2Proof/Word.lean ====
section
/-! DEFINITION. The plain carriers of the model: characters of a line, cells of the chain, bytes of the
board link, sparse tables and timers. -/

namespace Sys2Proof

/-- A character of RXD, a byte of the board link (R149, R157). -/
abbrev Byte := BitVec 8

/-- A text: the printable characters of a line, a tag, a destination, a board line. -/
abbrev Text := List Char

/-- A table of numbered records: pairs of a number and a record, numbers strictly rising.
A record that is ABSENT is not listed. -/
abbrev Table (α : Type) := List (Nat × α)

/-- A timer: stopped, or running toward a moment of the model's clock. -/
abbrev Timer := Option Nat

end Sys2Proof
end

