-- ==== Sys2Proof/Names.lean ====
section
/-! DEFINITION. The names the spec writes in capitals: kinds, states, positions, codes and the
operand forms of the commands. -/

namespace Sys2Proof

/-! ## Layout tables (chapter 1) -/

/-- Ends of a section (R2). -/
inductive EndName where
  | a | b | toe | normal | reverse
deriving DecidableEq, Repr

/-- Kind of a section (R1). -/
inductive SectionKind where
  | plain | point | bridge
deriving DecidableEq, Repr

/-- Neighbour value of an end (R2). -/
inductive Neighbour where
  | buffer
  | sectionEnd (t : Nat) (f : EndName)
  | turntable
deriving DecidableEq, Repr

/-- Sense of a section's rails (R1). -/
inductive Sense where
  | plus | minus
deriving DecidableEq, Repr

/-- A terminal, written module.terminal. -/
structure TermId where
  module : Nat
  terminal : Nat
deriving DecidableEq, Repr

/-- Operating mode (R11). -/
inductive Mode where
  | config | run
deriving DecidableEq, Repr

/-! ## Field chain (chapter 2) -/

inductive ModuleType where
  | general | detector | driver
deriving DecidableEq, Repr

inductive Direction where
  | sense | drive
deriving DecidableEq, Repr

inductive Level where
  | high | low
deriving DecidableEq, Repr

/-- A position of a point: N or R. -/
inductive PointPos where
  | n | r
deriving DecidableEq, Repr

/-- Lamps of a signal head (R78). -/
inductive Lamp where
  | red | yellow | yellow2 | green | shunt
deriving DecidableEq, Repr

/-- Sources of a mimic lamp (R144). -/
inductive MimicSource where
  | sectionOcc (s : Nat)
  | sectionLock (s : Nat)
  | pointPos (p : Nat) (pos : PointPos)
  | signalProceed (g : Nat)
  | road (k : Nat)
  | showLamp (n : Nat)
deriving DecidableEq, Repr

/-- Roles of a terminal, each with its object (R22). -/
inductive Role where
  | detect (s : Nat)
  | pointDet (p : Nat) (pos : PointPos)
  | button (n : Nat)
  | stopButton
  | auxIn (a : Nat)
  | coil (p : Nat) (pos : PointPos)
  | signalLamp (g : Nat) (lamp : Lamp)
  | mimic (src : MimicSource)
  | auxOut (a : Nat)
  | off
deriving DecidableEq, Repr

/-- Output value an owner supplies for a drive terminal (R25). -/
inductive OutValue where
  | on | off | flash
deriving DecidableEq, Repr

inductive Health where
  | healthy | faulty
deriving DecidableEq, Repr

/-- States of the chain sequencer (section 2.4). -/
inductive Sequencer where
  | chReset | enumerate | idle | capture | shift | update | halted
deriving DecidableEq, Repr

/-- The chain condition (R35). -/
inductive Condition where
  | down | settling | healthy
deriving DecidableEq, Repr

/-- A chain fault as it is reported (R29). -/
inductive ChainFault where
  | tail
  | enum (p : Nat)
deriving DecidableEq, Repr

inductive ScanMode where
  | normal | lampTest
deriving DecidableEq, Repr

/-! ## Points (chapter 3) -/

/-- Position of a point (R40). -/
inductive Position where
  | normal | reverse | movingN | movingR | unknown | failed
deriving DecidableEq, Repr

/-- Throw phase of a point (R40). -/
inductive Phase where
  | atRest | queued | pulsing | awaiting | pulsingQueued
deriving DecidableEq, Repr

/-- Detection reading of a point (R40). -/
inductive Reading where
  | n | r | both | neither
deriving DecidableEq, Repr

/-- Causes of a dropped throw (R41). -/
inductive DropCause where
  | occ | lock | stop | cancel
deriving DecidableEq, Repr

/-! ## Routes (chapter 4) -/

/-- A bridge end. -/
inductive BridgeEnd where
  | a | b
deriving DecidableEq, Repr

inductive RouteType where
  | main | shunt
deriving DecidableEq, Repr

/-- Exit of a route (R52). -/
inductive RouteExit where
  | signal (g : Nat)
  | buffer
  | road (k : Nat)
deriving DecidableEq, Repr

inductive RouteState where
  | idle | setting | set | cancelPending | occupied
deriving DecidableEq, Repr

/-- Origin of a stored request or of a bridge move: the host link, a train's run list, a show, a route. -/
inductive Origin where
  | link
  | train (n : Nat)
  | show (n : Nat)
  | route (r : Nat)
deriving DecidableEq, Repr

/-- Causes of a route's failure (R66). -/
inductive FailCause where
  | point (p : Nat)
  | bridge
  | timeout
  | stop
deriving DecidableEq, Repr

/-- Causes of a request leaving the queue unstarted (R54). -/
inductive RequestDrop where
  | can | expiry | withdrawn | mode
deriving DecidableEq, Repr

/-! ## Signals (chapter 5) -/

inductive HeadType where
  | two | three | four
deriving DecidableEq, Repr

/-- Logical aspects, from the most restrictive to the least (section 5.2). -/
inductive Aspect where
  | stop | shunt | caution | prelim | clear
deriving DecidableEq, Repr

/-! ## Trains (chapter 6) -/

inductive TrainState where
  | unused | unplaced | active | lost
deriving DecidableEq, Repr

/-- Who sets a train's demand. -/
inductive Driver where
  | link
  | show (n : Nat)
deriving DecidableEq, Repr

/-- Request mark of a train (R89). -/
inductive RequestMark where
  | none | queued | started | deferred
deriving DecidableEq, Repr

inductive RunMode where
  | once | loop
deriving DecidableEq, Repr

/-! ## Drive (chapter 7) -/

inductive Polarity where
  | pos | neg
deriving DecidableEq, Repr

inductive OutputState where
  | driven | float
deriving DecidableEq, Repr

/-- Force of a channel (R108). -/
inductive Force where
  | none | off | fullPos | fullNeg | float
deriving DecidableEq, Repr

/-! ## Turntable (chapter 8) -/

inductive BridgeState where
  | unhomed | homing | stopped | aligned | moving | stopping | fault
deriving DecidableEq, Repr

inductive MoveDir where
  | cw | ccw
deriving DecidableEq, Repr

/-- How a move ended, as its origin is told (R127). -/
inductive MoveOutcome where
  | atTarget | elsewhere | fault
deriving DecidableEq, Repr

/-! ## Visitor unit (chapter 9) -/

inductive ShowState where
  | unavailable | ready | pending | running | cooling
deriving DecidableEq, Repr

inductive ShowPhase where
  | routeWait | run | dwell | turn
deriving DecidableEq, Repr

/-- Causes of a show's abort (R143, R14). -/
inductive AbortCause where
  | timeout | route | turn | stop | lost | removed | passedStop | take | host | disable | mode
deriving DecidableEq, Repr

/-- Source of a board line (R145). -/
inductive LineSource where
  | text (t : Text)
  | train (n : Nat)
  | show (n : Nat)
  | blank
deriving DecidableEq, Repr

/-! ## Stop and store (chapter 11) -/

inductive LoopValue where
  | opened | closed
deriving DecidableEq, Repr

/-- Cause of an emergency stop (R158). -/
inductive StopCause where
  | loop
  | button (t : TermId)
  | host
deriving DecidableEq, Repr

/-- The check words of validation (section 1.6). -/
inductive CheckWord where
  | topology | path | role | stopchan | polarity | turntable | runs | calibration
deriving DecidableEq, Repr

inductive StartCause where
  | power | reset
deriving DecidableEq, Repr

/-! ## Host link (chapter 10) -/

/-- Faults of a line in assembly (R150, R151). -/
inductive LineFault where
  | bad | long | late
deriving DecidableEq, Repr

/-- What a refusal mark carries: SYNTAX, LONG or LATE (R152). -/
inductive RefusalMark where
  | badForm | long | late
deriving DecidableEq, Repr

/-- Report classes (R155). -/
inductive ReportClass where
  | sec | point | signal | route | train | turn | show | board | chain | aux | sys
deriving DecidableEq, Repr

/-- Reply codes (R153). `badForm` is the code SYNTAX. -/
inductive Code where
  | badForm | unknown | range | mode | busy | state | conflict | occupied | locked | failed | full
  | limit | stopped | owned | long | late | invalid
deriving DecidableEq, Repr

/-- An object a reply or a report names. -/
inductive Obj where
  | sec (s : Nat)
  | point (p : Nat)
  | route (r : Nat)
  | signal (g : Nat)
  | train (n : Nat)
  | show (n : Nat)
  | road (k : Nat)
  | channel (c : Nat)
  | terminal (t : TermId)
  | turntable
  | chain
  | loop
  | word (w : Text)
deriving DecidableEq, Repr

/-- The record a definition command names: by a number, by a terminal, or by nothing (the one bridge
record). `other` is a number, or a terminal, one of whose parts is signed or broken. -/
inductive RecordRef where
  | unnamed
  | num (n : Nat)
  | terminal (m t : Nat)
  | other
deriving DecidableEq, Repr

/-- One word of TELL (R154): a signed class word, with the class when it is known, or an unsigned word. -/
inductive TellWord where
  | enable (c : Option ReportClass)
  | disable (c : Option ReportClass)
  | unsigned
deriving DecidableEq, Repr

/-- The sources that BOARD b l SOURCE names (R145). -/
inductive SourceWord where
  | train (n : Nat)
  | show (n : Nat)
  | blank
deriving DecidableEq, Repr

end Sys2Proof
end

