-- ==== Sys2Proof/Syntax.lean ====
section
/-! DEFINITION. The commands: one constructor for each row of spec/opcode_table.json, with its operands.
A number of a host command is carried as the host wrote it, in range or not: the owning rule judges it. -/

namespace Sys2Proof

/-- The 94 rows of the opcode table. -/
inductive Instr where
  | powerOn (loop : LoopValue)
  | startUpSequence (loop : LoopValue)
  | characterReceived (code : Byte) (framingError : Bool)
  | gapTimerExpiry
  | rxdBreak
  | lineSent
  | baudChange
  | refusalMark (m : RefusalMark)
  | unknownCommand
  | define (kind : Text) (record : RecordRef) (fields : List (Text × Text))
  | defDelete (kind : Text) (record : RecordRef)
  | modeRun
  | modeConfig
  | setup (pairs : List (Text × Text))
  | getSection (s : Nat)
  | getModule (m : Nat)
  | getTerminal (m t : Nat)
  | getChain
  | getPoint (p : Nat)
  | getSupply
  | getRoute (r : Nat)
  | getSignal (g : Nat)
  | getTrain (n : Nat)
  | getTimebase
  | getChannel (c : Nat)
  | getTurntable
  | getRoad (k : Nat)
  | getShow (n : Nat)
  | getBoard (b : Nat)
  | getLink
  | getAux (a : Nat)
  | routeSet (r : Nat)
  | routeStore (r : Nat)
  | routeCan (r : Nat)
  | point (p : Nat) (pos : PointPos)
  | trainPlace (n s : Nat) (e : Option EndName)
  | trainSpeed (n v : Nat)
  | trainReverse (n : Nat)
  | trainRelease (n : Nat)
  | trainTake (n : Nat)
  | trainRemove (n : Nat)
  | trainRunlist (n : Nat) (mode : RunMode) (routes : List Nat)
  | timebase (p : Nat)
  | chanForce (c : Nat) (f : Option Force)
  | turn (k : Nat) (e : Option BridgeEnd) (dir : Option MoveDir)
  | turnHome
  | turnStop
  | showEnable (n : Nat)
  | showDisable (n : Nat)
  | showAbort (n : Nat)
  | boardText (b l : Nat) (text : Text)
  | boardSource (b l : Nat) (src : SourceWord)
  | aux (a v : Nat)
  | tell (words : List TellWord)
  | chainReset
  | chainMode (m : ScanMode)
  | estop
  | resume
  | save
  | reset
  | baud (n : Nat)
  | chResetEnd
  | enumerationWord (cells : List Bool)
  | retryTimerExpiry
  | scanTimerExpiry
  | captureDone
  | shiftEnd (cells : List Bool)
  | updateComplete
  | flashPhaseToggle
  | rechargeTimerExpiry
  | detectionTimeout (p : Nat)
  | settingTimeout (r : Nat)
  | approachReleaseTimerExpiry (r : Nat)
  | requestExpiry (r : Nat)
  | overlapTimerExpiry (r : Nat)
  | dwellTimerExpiry (r : Nat)
  | lostTimerExpiry (n : Nat)
  | counterZero
  | governorTick
  | bridgeStep
  | rateUpdate
  | thomeEdge
  | legTimerExpiry (n : Nat)
  | showDwellTimerExpiry (n : Nat)
  | coolDownTimerExpiry (n : Nat)
  | boardLineJudgement
  | frameSent
  | replyFrame (bytes : List Byte)
  | replyTimerExpiry
  | probeTimerExpiry (b : Nat)
  | stoploopChange (v : LoopValue)
  | saveEnd (good : Bool)
  | rxdReturnedHigh
  | lossOfPower
deriving DecidableEq, Repr

end Sys2Proof
end

