-- ==== Sys2Proof/Decode.lean ====
section
/-! DEFINITION. The bits of the command table. The rows of spec/opcode_table.json give no bits: the part takes
lines, edges and expiries, not words, so no word spells a command. -/

namespace Sys2Proof

/-- The command that a word spells by the table's bits: none, for every word. -/
def decodeTableWord (_nbits _w : Nat) : Option Instr := none

end Sys2Proof
end

