-- ==== Sys2Proof/Config.lean ====
section
/-! DEFINITION. What the part fixes: capacities, times and the free values. -/

namespace Sys2Proof.Config

/-- FREE VALUE, log 8: the level of TDIR once stepping has ended. R126 holds TDIR "until stepping ends" and
states no level after that. Applied to a counter of State, so each end of stepping has a value of its own. -/
opaque freeLevel : Nat → Bool

/-- How many hand-overs between blocks one arrival may make inside one command (log 4). -/
def cascadeFuel : Nat := 100000

/-- Counts of the 4 MHz time-base in a millisecond. -/
def countsPerMs : Nat := 4000

def maxSections : Nat := 128
def maxModules : Nat := 40
def terminalsPerModule : Nat := 16
def maxPoints : Nat := 64
def maxSignals : Nat := 96
def maxRoutes : Nat := 256
def maxTrains : Nat := 32
def maxChannels : Nat := 24
def maxRoads : Nat := 24
def maxShows : Nat := 8
def maxBoards : Nat := 4

/-- Capacity of the throw queue (R43). -/
def throwQueueMax : Nat := 16
/-- Capacity of the route request queue (R60). -/
def requestMax : Nat := 48
/-- Capacity of a lock set (R56). -/
def lockSetMax : Nat := 8
/-- Longest section list of a train (R92). -/
def listMax : Nat := 6
/-- Capacity of the line buffer (R152). -/
def bufferMax : Nat := 4
/-- Bound of the owed count (R152). -/
def owedMax : Nat := 255
/-- Bound of the lost count (R152). -/
def lostMax : Nat := 65535
/-- Capacity of the report queue (R155). -/
def reportMax : Nat := 64
/-- Characters a line holds (R150). -/
def lineMax : Nat := 120

/-- The default link speed (R149). -/
def defaultSpeed : Nat := 57600
/-- The six link speeds (R149). -/
def speeds : List Nat := [9600, 19200, 38400, 57600, 115200, 230400]

/-- Tail and tail marker, in the order sent and received (R157). -/
def tailPattern : List Bool :=
  [true, true, true, true, false, false, false, false, true, false, true, false, false, true, true, false]

/-- Cells 0 to 39 of an identity word: alternately 1 and 0, starting with 1 (R157). -/
def identityHead : List Bool :=
  [true, false, true, false, true, false, true, false, true, false, true, false, true, false, true, false,
   true, false, true, false, true, false, true, false, true, false, true, false, true, false, true, false,
   true, false, true, false, true, false, true, false]

/-- Cells 40 to 47 of an identity word (R157). -/
def identityType : ModuleType → List Bool
  | .general => [true, true, false, false, false, false, true, true]
  | .detector => [true, true, false, false, true, true, false, false]
  | .driver => [true, true, false, false, true, true, true, true]

/-- Every report class, in the order of R155. -/
def allClasses : List ReportClass :=
  [.sec, .point, .signal, .route, .train, .turn, .show, .board, .chain, .aux, .sys]

end Sys2Proof.Config
end

