-- ==== Sys2Proof/Machine/State.lean ====
section
/-! DEFINITION. The state of the part as plain data, block by block, with the value every field takes after
power-on and RESET as the default of the field (R163), and State.reset. -/

namespace Sys2Proof.Machine

open Sys2Proof

/-! ## Layout tables, LT (chapter 1) -/

/-- Configured fields of a section (R1, R2). An end that the kind does not have holds `buffer`. -/
structure SectionCfg where
  kind : SectionKind := .plain
  endA : Neighbour := .buffer
  endB : Neighbour := .buffer
  endToe : Neighbour := .buffer
  endNormal : Neighbour := .buffer
  endReverse : Neighbour := .buffer
  point : Option Nat := none
  detector : Option TermId := none
  clearDelay : Nat := 300
  speedLimit : Nat := 127
  channel : Option Nat := none
  sense : Sense := .plus
  platform : Option Nat := none
deriving DecidableEq, Repr

/-- A DEFINED section: configured fields, occupancy (R3) and route lock (R4). -/
structure SectionRec where
  cfg : SectionCfg := {}
  occupied : Bool := false
  lock : Option Nat := none
deriving DecidableEq, Repr

/-! ## Field chain, FC (chapter 2) -/

/-- A DEFINED module (R21) with the counters of the echo check (R31). -/
structure ModuleRec where
  type : ModuleType := .general
  health : Health := .healthy
  mismatches : Nat := 0
  matched : Nat := 0
deriving DecidableEq, Repr

/-- Configured fields of a terminal (R22). -/
structure TerminalCfg where
  direction : Direction := .sense
  pullUp : Bool := true
  role : Role := .off
  active : Level := .low
deriving DecidableEq, Repr

/-- Live fields of a terminal (R23, R32, R33, R34). A value is true when active: occupied, present,
pressed, 1. `handed` is none while the owner holds the role's unqualified value, which is also its fault
value (R34). -/
structure TerminalLive where
  lastSample : Option Bool := none
  qualified : Option Bool := none
  clearStart : Option Nat := none
  handed : Option Bool := none
deriving DecidableEq, Repr

/-- What a module is sent in one image: for each terminal the value, pull and enable cells (R24). -/
abbrev ModuleImage := List (Bool × Bool × Bool)

/-- The field chain. `clock` is in tenths of a kHz, so 62.5 kHz is 625 (R30). `composed` numbers the
images; a request, a pulse or an OFF remembers the number then reached, and "an image composed after" it
is an image of a higher number (R24, R38, R46). `found` is 0 until an enumeration has run (log 45). -/
structure Chain where
  modules : Table ModuleRec := []
  terminals : Table TerminalCfg := []
  live : Table TerminalLive := []
  seq : Sequencer := .chReset
  seqDue : Timer := some 64
  enumCount : Nat := 0
  found : Nat := 0
  scanTimer : Timer := none
  scanExpired : Bool := false
  retryTimer : Timer := none
  condition : Condition := .down
  lastFault : Option ChainFault := none
  modeInForce : ScanMode := .normal
  modeRequested : ScanMode := .normal
  requestedAt : Nat := 0
  flashLit : Bool := true
  flashDue : Nat := 2000000
  composed : Nat := 0
  image : List ModuleImage := []
  latched : List ModuleImage := []
  clock : Nat := 5000
  clockInForce : Nat := 5000
  period : Nat := 10
  periodInForce : Nat := 10
deriving DecidableEq, Repr

/-! ## Point unit, PU (chapter 3) -/

/-- Configured fields of a point (R39). -/
structure PointCfg where
  coilN : Option TermId := none
  coilR : Option TermId := none
  detN : Option TermId := none
  detR : Option TermId := none
  pulseLength : Nat := 100
deriving DecidableEq, Repr

/-- A DEFINED point (R40) with its detection timer (R47). -/
structure PointRec where
  cfg : PointCfg := {}
  position : Position := .unknown
  commanded : Option PointPos := none
  phase : Phase := .atRest
  locks : List Nat := []
  failed : Bool := false
  reading : Reading := .neither
  detTimer : Timer := none
deriving DecidableEq, Repr

/-- A pulse in progress (R46): the point and position, the scans it lasts, the UPDATEs counted, the number
of images composed when it started and, once OFF is supplied, the number composed then. -/
structure Pulse where
  point : Nat
  pos : PointPos
  scans : Nat
  count : Nat := 0
  startedAt : Nat
  offAt : Option Nat := none
deriving DecidableEq, Repr

/-- The point supply (R44). -/
inductive Supply where
  | ready
  | pulsing (p : Pulse)
  | recharging (due : Nat)
deriving DecidableEq, Repr

structure PointUnit where
  points : Table PointRec := []
  queue : List (Nat × PointPos) := []
  supply : Supply := .recharging 1600000
  recharge : Nat := 400
  detectTimeout : Nat := 1500
deriving DecidableEq, Repr

/-! ## Interlocking, IX (chapters 4 and 5) -/

/-- Configured fields of a route (R52). -/
structure RouteCfg where
  entry : Option Nat := none
  exit : RouteExit := .buffer
  type : RouteType := .main
  path : List Nat := []
  points : List (Nat × PointPos) := []
  flanks : List (Nat × PointPos) := []
  overlap : List Nat := []
  approach : List Nat := []
  bridge : Option (Nat × BridgeEnd) := none
  approachRelease : Nat := 30
  overlapRelease : Nat := 10
deriving DecidableEq, Repr

/-- A DEFINED route (R53). `overlapStarted`: the overlap timer has started in this occupation (R73).
`leaving`: the route has given up its locks and frees each section as it clears (R74, R75). `asked`: the
bridge move in flight was asked in this setting of the route (R66, R134). -/
structure RouteRec where
  cfg : RouteCfg := {}
  state : RouteState := .idle
  train : Option Nat := none
  passed : List Nat := []
  overlapReleased : Bool := false
  settingTimer : Timer := none
  approachTimer : Timer := none
  overlapTimer : Timer := none
  dwellTimer : Timer := none
  overlapStarted : Bool := false
  leaving : Bool := false
  asked : Bool := false
deriving DecidableEq, Repr

/-- An entry of the route request queue (R60). -/
structure Request where
  route : Nat
  origin : Origin
  expiry : Option Nat
deriving DecidableEq, Repr

/-- Configured fields of a signal (R77, R78). A lamp that the head does not have holds no terminal. -/
structure SignalCfg where
  location : Option (Nat × EndName) := none
  head : HeadType := .two
  shuntLamp : Bool := false
  red : Option TermId := none
  yellow : Option TermId := none
  yellow2 : Option TermId := none
  green : Option TermId := none
  shunt : Option TermId := none
  stopSection : Option Nat := none
deriving DecidableEq, Repr

/-- A DEFINED signal (R79). The led route is computed from the routes' states. -/
structure SignalRec where
  cfg : SignalCfg := {}
  aspect : Aspect := .stop
  stopCut : Bool := false
deriving DecidableEq, Repr

structure Interlocking where
  routes : Table RouteRec := []
  requests : List Request := []
  signals : Table SignalRec := []
  shuntCap : Nat := 24
  cautionCap : Nat := 40
  prelimCap : Nat := 80
deriving DecidableEq, Repr

/-! ## Train tracker, TT (chapter 6) -/

/-- An entry of a section list (R92). -/
structure ListEntry where
  sec : Nat
  exit : EndName
  entry : EndName
deriving DecidableEq, Repr

/-- Configured fields of a train (R88), run list included. -/
structure TrainCfg where
  tag : Option Text := none
  destination : Text := []
  v0 : Nat := 100
  vmax : Nat := 800
  accel : Nat := 16
  brake : Nat := 16
  emergency : Nat := 2032
  runList : List Nat := []
  runMode : RunMode := .once
deriving DecidableEq, Repr

/-- A DEFINED train (R89). `list` runs from trailing to leading. DRIVE-CONFLICT is held while
`channelConflict` or an ambiguity section stands (R91). `trailDue`: the removals of a reversal made while the
chain was not HEALTHY are still to be made (R103). `departure` and `stepRead` are the visitor unit's (R145,
R146). -/
structure TrainRec where
  cfg : TrainCfg := {}
  state : TrainState := .unused
  list : List ListEntry := []
  remembered : Option ListEntry := none
  passedStop : Bool := false
  onTurn : Bool := false
  reversing : Bool := false
  showWait : Bool := false
  channelConflict : Bool := false
  ambiguity : Option Nat := none
  demand : Nat := 0
  current : Nat := 0
  cap : Option Nat := none
  driver : Driver := .link
  lostTimer : Timer := none
  mark : RequestMark := .none
  trailDue : Bool := false
  departure : Option Nat := none
  stepRead : Nat := 0
deriving DecidableEq, Repr

structure Tracker where
  trains : Table TrainRec := []
  lostTime : Nat := 3000
deriving DecidableEq, Repr

/-! ## Drive and governor, DG (chapter 7) -/

/-- A train on a channel at the last tick: its number, its compare and the polarities it required (R108). -/
structure TickTrain where
  train : Nat
  compare : Nat
  polarities : List Polarity
deriving DecidableEq, Repr

/-- A drive channel (R108). -/
structure Channel where
  compare : Nat := 0
  shadow : Nat := 0
  polarity : Polarity := .pos
  shadowPolarity : Polarity := .pos
  output : OutputState := .float
  force : Force := .none
  conflict : Bool := false
  lastTrains : List TickTrain := []
  lastStopCut : Bool := false
  lastBridgeCut : Bool := false
deriving DecidableEq, Repr

/-- The time-base, the channels and the governor's marks (R106, R112, R115). -/
structure Drive where
  period : Nat := 400
  shadow : Nat := 400
  zeroAt : Nat := 0
  divider : Nat := 0
  channels : List Channel := List.replicate 24 {}
  replacement : List Nat := []
  fallen : List Nat := []
  bridgeCap : Nat := 16
deriving DecidableEq, Repr

/-! ## Turntable unit, TU (chapter 8) -/

/-- Configured fields of the bridge (R124). -/
structure BridgeCfg where
  steps : Nat := 3200
  rMin : Nat := 100
  rMax : Nat := 800
  accel : Nat := 400
deriving DecidableEq, Repr

/-- A DEFINED road (R125). -/
structure RoadCfg where
  position : Nat := 0
  sec : Option Nat := none
  bridgeEnd : BridgeEnd := .a
deriving DecidableEq, Repr

/-- A move in flight (R126). -/
structure Move where
  target : Nat
  road : Nat
  bridgeEnd : BridgeEnd
  dir : MoveDir
  toGo : Nat
  origin : Origin
deriving DecidableEq, Repr

/-- The turntable (R126, R132). `position` none is UNKNOWN. `pulses` counts the TSTEP pulses issued: the
model's own record of the pin. The intervals before the first move are the model's choice (log 50). -/
structure Turntable where
  bridge : Option BridgeCfg := none
  roads : Table RoadCfg := []
  state : BridgeState := .unhomed
  position : Option Nat := none
  faceA : Option Nat := none
  faceB : Option Nat := none
  locks : List Nat := []
  move : Option Move := none
  rate : Nat := 0
  homingCount : Nat := 0
  carried : Option Nat := none
  interval : Nat := 0
  shadowInterval : Nat := 0
  stepDue : Timer := none
  rateDue : Timer := none
  tdir : Bool := false
  pulses : Nat := 0
deriving DecidableEq, Repr

/-! ## Visitor unit, VU (chapter 9) -/

/-- A leg of a show (R137). -/
structure Leg where
  route : Option Nat := none
  step : Nat := 20
  dwell : Nat := 10
  target : Option (Nat × BridgeEnd) := none
deriving DecidableEq, Repr

/-- Configured fields of a show (R137). -/
structure ShowCfg where
  button : Option TermId := none
  lamp : Option TermId := none
  train : Option Nat := none
  legs : List Leg := [{}]
  coolDown : Nat := 60
  legTimeout : Nat := 120
  enabled : Bool := true
deriving DecidableEq, Repr

/-- A DEFINED show (R138). `legExpiry` is the expiry that every store of the leg names, `legOccupied` says
that the leg's route has been OCCUPIED by the show's train (R141). -/
structure ShowRec where
  cfg : ShowCfg := {}
  state : ShowState := .unavailable
  leg : Nat := 0
  phase : ShowPhase := .routeWait
  storePending : Bool := false
  legTimer : Timer := none
  dwellTimer : Timer := none
  coolTimer : Timer := none
  legExpiry : Nat := 0
  legOccupied : Bool := false
deriving DecidableEq, Repr

/-- A board line (R145, R146). -/
structure BoardLine where
  source : LineSource := .blank
  acked : Option Text := none
deriving DecidableEq, Repr

/-- A display board (R148). -/
structure Board where
  online : Bool := false
  probeTimer : Timer := none
  probeDue : Bool := true
  lines : List BoardLine := List.replicate 4 {}
deriving DecidableEq, Repr

/-- A frame of the board link (R147, R148): a line frame with its text, sent for the first time or again,
or a probe. -/
inductive Frame where
  | line (b l : Nat) (text : Text) (resent : Bool)
  | probe (b : Nat)
deriving DecidableEq, Repr

/-- The board link (R147). -/
inductive BoardLink where
  | idle
  | sending (f : Frame)
  | awaiting (f : Frame) (due : Nat)
deriving DecidableEq, Repr

structure Visitor where
  shows : Table ShowRec := []
  waiting : List Nat := []
  boards : List Board := List.replicate 4 {}
  boardQueue : List (Nat × Nat) := []
  link : BoardLink := .idle
  judgeDue : Nat := 400000
deriving DecidableEq, Repr

/-! ## Stop and store, SS (chapter 11) -/

/-- The stored layout image (R160): configured fields and settings, nothing live. -/
structure Image where
  sections : Table SectionCfg := []
  modules : Table ModuleType := []
  terminals : Table TerminalCfg := []
  points : Table PointCfg := []
  routes : Table RouteCfg := []
  signals : Table SignalCfg := []
  trains : Table TrainCfg := []
  bridge : Option BridgeCfg := none
  roads : Table RoadCfg := []
  shows : Table ShowCfg := []
  boardSources : List (List LineSource) := []
  clock : Nat := 5000
  period : Nat := 10
  recharge : Nat := 400
  detectTimeout : Nat := 1500
  shuntCap : Nat := 24
  cautionCap : Nat := 40
  prelimCap : Nat := 80
  lostTime : Nat := 3000
  bridgeCap : Nat := 16
  drivePeriod : Nat := 400
  speed : Nat := 57600
  autorun : Bool := false
deriving DecidableEq, Repr

/-- A bank of the store (R160): BLANK, or an image, its sequence number and whether its CRC agrees with
its contents (log 7). -/
inductive Bank where
  | blank
  | image (img : Image) (seq : Nat) (crcAgrees : Bool)
deriving DecidableEq, Repr

/-- A SAVE in flight (R161): the copy, the target bank (0 or 1) and the next sequence number. -/
structure SaveJob where
  copy : Image
  bank : Nat
  seq : Nat
deriving DecidableEq, Repr

structure StopStore where
  stop : Bool := false
  loop : LoopValue := .closed
  bank0 : Bank := .blank
  bank1 : Bank := .blank
  save : Option SaveJob := none
  autorun : Bool := false
deriving DecidableEq, Repr

/-! ## Host link, HL (chapter 10) -/

/-- The report lines the part sends: the words of each stand in its comment. -/
inductive Report where
  /-- ! SEC s OCC, ! SEC s CLEAR -/
  | sec (s : Nat) (occ : Bool)
  /-- ! AUX a v -/
  | aux (a : Nat) (v : Bool)
  /-- ! POINT p MOVING N or R -/
  | pointMoving (p : Nat) (pos : PointPos)
  /-- ! POINT p N or R -/
  | pointAt (p : Nat) (pos : PointPos)
  /-- ! POINT p N LATE or R LATE -/
  | pointLate (p : Nat) (pos : PointPos)
  /-- ! POINT p LOST -/
  | pointLost (p : Nat)
  /-- ! POINT p DROPPED cause -/
  | pointDropped (p : Nat) (cause : DropCause)
  /-- ! POINT p FAILED -/
  | pointFailed (p : Nat)
  /-- ! SIGNAL g aspect -/
  | signal (g : Nat) (aspect : Aspect)
  /-- ! ROUTE r QUEUED origin -/
  | routeQueued (r : Nat) (origin : Origin)
  /-- ! ROUTE r DROPPED cause -/
  | routeDropped (r : Nat) (cause : RequestDrop)
  /-- ! ROUTE r SETTING, SET, CANCEL-PENDING or IDLE -/
  | routeState (r : Nat) (st : RouteState)
  /-- ! ROUTE r OCCUPIED n -/
  | routeOccupied (r n : Nat)
  /-- ! ROUTE r FAILED cause -/
  | routeFailed (r : Nat) (cause : FailCause)
  /-- ! TRAIN n ACTIVE s -/
  | trainActive (n s : Nat)
  /-- ! TRAIN n LOST s -/
  | trainLost (n s : Nat)
  /-- ! TRAIN n FOUND s -/
  | trainFound (n s : Nat)
  /-- ! TRAIN n UNPLACED -/
  | trainUnplaced (n : Nat)
  /-- ! TRAIN n RELEASED -/
  | trainReleased (n : Nat)
  /-- ! TRAIN n AT x -/
  | trainAt (n x : Nat)
  /-- ! TRAIN n LONG t -/
  | trainLong (n t : Nat)
  /-- ! TRAIN n PASSED-STOP g -/
  | trainPassedStop (n g : Nat)
  /-- ! TRAIN AMBIGUOUS x n m … -/
  | trainAmbiguous (x : Nat) (ns : List Nat)
  /-- ! TRAIN STRAY x -/
  | trainStray (x : Nat)
  /-- ! TRAIN n REVERSED -/
  | trainReversed (n : Nat)
  /-- ! TRAIN n DRIVE-CONFLICT c -/
  | trainConflict (n c : Nat)
  /-- ! TRAIN n DRIVE-CONFLICT CLEAR -/
  | trainConflictClear (n : Nat)
  /-- ! TURN HOMING -/
  | turnHoming
  /-- ! TURN MOVING k E dir -/
  | turnMoving (k : Nat) (e : BridgeEnd) (dir : MoveDir)
  /-- ! TURN STOPPING -/
  | turnStopping
  /-- ! TURN STOPPED p -/
  | turnStopped (p : Nat)
  /-- ! TURN ALIGNED k E -/
  | turnAligned (k : Nat) (e : BridgeEnd)
  /-- ! TURN FAULT HOME -/
  | turnFaultHome
  /-- ! TURN FAULT DRIFT d -/
  | turnFaultDrift (d : Int)
  /-- ! TURN DRIFT d -/
  | turnDrift (d : Int)
  /-- ! TURN UNHOMED STOP, ! TURN UNHOMED DEFINE -/
  | turnUnhomed (byDefine : Bool)
  /-- ! SHOW n READY, PENDING, RUNNING, COOLING or UNAVAILABLE -/
  | showState (n : Nat) (st : ShowState)
  /-- ! SHOW n ABORT cause -/
  | showAbort (n : Nat) (cause : AbortCause)
  /-- ! SHOW n LEG i -/
  | showLeg (n i : Nat)
  /-- ! BOARD b ONLINE, ! BOARD b OFFLINE -/
  | board (b : Nat) (online : Bool)
  /-- ! CHAIN DOWN, SETTLING or HEALTHY -/
  | chainCondition (c : Condition)
  /-- ! CHAIN FAULT TAIL, ! CHAIN FAULT ENUM p -/
  | chainFault (f : ChainFault)
  /-- ! CHAIN MODULE m FAULTY or HEALTHY -/
  | chainModule (m : Nat) (h : Health)
  /-- ! CHAIN MODE m -/
  | chainMode (m : ScanMode)
  /-- ! SYS BREAK -/
  | sysBreak
  /-- ! SYS MODE RUN, ! SYS MODE CONFIG -/
  | sysMode (m : Mode)
  /-- ! SYS OVERFLOW -/
  | sysOverflow
  /-- ! SYS ESTOP cause -/
  | sysEstop (c : StopCause)
  /-- ! SYS RESUMED -/
  | sysResumed
  /-- ! SYS SAVED -/
  | sysSaved
  /-- ! SYS SAVE-FAILED -/
  | sysSaveFailed
  /-- ! SYS STORE-EMPTY -/
  | sysStoreEmpty
  /-- ! SYS STORE-BAD -/
  | sysStoreBad
  /-- ! SYS INVALID kind n check -/
  | sysInvalid (o : Obj) (c : CheckWord)
  /-- ! SYS START POWER, ! SYS START RESET -/
  | sysStart (c : StartCause)
deriving DecidableEq, Repr

/-- The queue place, origin and expiry that GET ROUTE returns of a queued request (R53). -/
structure RequestView where
  place : Nat
  origin : Origin
  expiry : Option Nat
deriving DecidableEq, Repr

/-- What GET ROUTE returns (R53). Times remaining are in counts of the clock. -/
structure RouteView where
  record : RouteRec
  lockedSections : List Nat
  lockedPoints : List Nat
  lockedBridge : Bool
  settingLeft : Option Nat
  approachLeft : Option Nat
  overlapLeft : Option Nat
  dwellLeft : Option Nat
  request : Option RequestView
deriving DecidableEq, Repr

/-- What GET CHAIN returns (R36). -/
structure ChainView where
  seq : Sequencer
  condition : Condition
  length : Nat
  found : Nat
  modeInForce : ScanMode
  modeRequested : ScanMode
  clock : Nat
  period : Nat
  lastFault : Option ChainFault
  awaited : Option TermId
deriving DecidableEq, Repr

/-- What GET POINT returns of a DEFINED point (R40). -/
structure PointView where
  record : PointRec
  detected : Bool
  sec : Option Nat
  place : Option Nat
deriving DecidableEq, Repr

/-- What GET SIGNAL returns of a DEFINED signal (R79). -/
structure SignalView where
  record : SignalRec
  led : Option (Nat × RouteState)
  lamps : List (Lamp × OutValue)
deriving DecidableEq, Repr

/-- What GET SHOW returns of a DEFINED show (R138). -/
structure ShowView where
  record : ShowRec
  legLeft : Option Nat
  dwellLeft : Option Nat
  coolLeft : Option Nat
  place : Option Nat
deriving DecidableEq, Repr

/-- What GET BOARD returns of one line (R148). -/
structure BoardLineView where
  source : LineSource
  composed : Text
  acked : Option Text
  place : Option Nat
deriving DecidableEq, Repr

/-- The words after OK (log 10). -/
inductive OkBody where
  /-- OK alone -/
  | bare
  /-- OK MODE m -/
  | mode (m : Mode)
  /-- OK SETUP -/
  | setup
  /-- OK ROUTE r and the state -/
  | route (r : Nat) (st : RouteState)
  /-- OK ROUTE r QUEUED -/
  | routeQueued (r : Nat)
  /-- OK TRAIN n ACTIVE -/
  | trainActive (n : Nat)
  /-- OK TRAIN n SPEED v -/
  | trainSpeed (n v : Nat)
  /-- OK TRAIN n RELEASED -/
  | trainReleased (n : Nat)
  /-- OK TRAIN n LINK -/
  | trainLink (n : Nat)
  /-- OK TRAIN n UNPLACED -/
  | trainUnplaced (n : Nat)
  /-- OK TRAIN n RUNLIST -/
  | trainRunlist (n : Nat)
  /-- OK TIMEBASE P -/
  | timebase (p : Nat)
  /-- OK CHAN c FORCE f -/
  | chanForce (c : Nat) (f : Force)
  /-- OK TURN MOVING k E dir -/
  | turnMoving (k : Nat) (e : BridgeEnd) (dir : MoveDir)
  /-- OK TURN ALIGNED k E -/
  | turnAligned (k : Nat) (e : BridgeEnd)
  /-- OK TURN followed by the state -/
  | turnState (st : BridgeState)
  /-- OK SHOW n followed by the state -/
  | show (n : Nat) (st : ShowState)
  /-- OK BOARD b l -/
  | board (b l : Nat)
  /-- OK AUX a v -/
  | aux (a v : Nat)
  /-- OK TELL followed by the enabled classes -/
  | tell (cs : List ReportClass)
  /-- OK CHAIN RESET -/
  | chainReset
  /-- OK CHAIN MODE m -/
  | chainMode (m : ScanMode)
  /-- OK ESTOP -/
  | estop
  /-- OK RESUME -/
  | resume
  /-- OK SAVE -/
  | save
  /-- OK RESET -/
  | reset
  /-- OK BAUD n -/
  | baud (n : Nat)
  | getSection (s : Nat) (record : Option SectionRec) (train : Option Nat)
  | getModule (m : Nat) (type : Option ModuleType) (health : Option Health) (detached : Bool)
  | getTerminal (t : TermId) (cfg : TerminalCfg) (last qualified handed : Option Bool) (beyond : Bool)
  | getChain (v : ChainView)
  | getPoint (p : Nat) (v : Option PointView)
  | getSupply (supply : Supply) (queue : List (Nat × PointPos)) (recharge detectTimeout : Nat)
  | getRoute (r : Nat) (v : Option RouteView)
  | getSignal (g : Nat) (v : Option SignalView)
  | getTrain (n : Nat) (record : Option TrainRec) (lostLeft : Option Nat)
  | getTimebase (active shadow k counts : Nat)
  | getChannel (c : Nat) (record : Channel) (sections : List Nat)
  | getTurntable (v : Turntable)
  | getRoad (k : Nat) (cfg : Option RoadCfg) (facing : Option BridgeEnd)
  | getShow (n : Nat) (v : Option ShowView)
  | getBoard (b : Nat) (online : Bool) (probeLeft : Option Nat) (lines : List BoardLineView)
  | getLink (speed : Nat) (classes : List ReportClass) (reports : Nat) (overflow : Bool) (buffer owed lost : Nat)
  | getAux (a : Nat) (out inp : Bool)
deriving DecidableEq, Repr

/-- A reply line (R153): OK and words, NO and a code with the object named, or NO INVALID kind n check. -/
inductive Reply where
  | ok (b : OkBody)
  | no (c : Code) (o : Option Obj)
  | notValid (o : Obj) (c : CheckWord)
deriving DecidableEq, Repr

/-- The line in assembly (R150). -/
structure Assembly where
  chars : Text := []
  fault : Option LineFault := none
  inQuote : Bool := false
deriving DecidableEq, Repr

/-- An entry of the line buffer (R152): a complete line as its text, a complete line as the command it
spells (a host command that came as a row of the table, log 3), or a refusal mark. -/
inductive BufferEntry where
  | line (t : Text)
  | command (c : Instr)
  | mark (m : RefusalMark)
deriving DecidableEq, Repr

/-- What the transmitter is sending (R155). -/
inductive TxLine where
  | owedFull
  | reply (r : Reply)
  | report (r : Report)
deriving DecidableEq, Repr

structure HostLink where
  line : Option Assembly := none
  gapTimer : Timer := none
  rxBreak : Bool := false
  buffer : List BufferEntry := []
  owed : Nat := 0
  lost : Nat := 0
  slot : Option Reply := none
  tx : Option TxLine := none
  reports : List Report := []
  overflow : Bool := false
  classes : List ReportClass := Config.allClasses
  speed : Nat := 57600
  auxOut : List Bool := List.replicate 16 false
  auxIn : List Bool := List.replicate 16 false
deriving DecidableEq, Repr

/-! ## Hand-overs inside an arrival (log 4) -/

/-- How a point's position changed, as the interlocking takes it (R41): a drop with cause CANCEL is a
withdrawal, which concerns no route (R67). -/
inductive PointEvent where
  | moved | placed | dropped | withdrawn | failed
deriving DecidableEq, Repr

/-- How a train changed state, as TU, VU and the tracker's readers take it (R90). -/
inductive TrainEvent where
  | active | lost | removed | other
deriving DecidableEq, Repr

/-- A hand-over from one block to others that has not been taken yet. `before` holds the aspects as they
stood before the event (R84). -/
inductive Notice where
  | occupancy (x : Nat) (occ : Bool)
  | trackOccupied (x : Nat) (before : List (Nat × Aspect))
  | trackClear (x : Nat)
  | pointChange (p : Nat) (e : PointEvent)
  | bridgeChange
  | moveEnded (o : Origin) (out : MoveOutcome)
  | reexamine
  | routeChange (r : Nat) (new : RouteState)
  | routeFail (r : Nat)
  | requestStarted (o : Origin) (r : Nat)
  | requestDropped (o : Origin) (r : Nat) (cause : RequestDrop)
  | placement (n : Nat)
  | holdsChange (n : Nat)
  | trainChange (n : Nat) (e : TrainEvent)
  | listChange (n : Nat)
  | passedStop (n : Nat)
  | driverLink (n : Nat)
  | stepChange (n : Nat)
  | judgeStart
  | dwellOver (n : Nat)
  | conditionChange
  | resumption
  | stopTracker
  | stopPoints
  | stopRoutes
  | stopTurntable
  | stopShows
deriving DecidableEq, Repr

/-! ## The whole part -/

/-- Everything the spec gives the part, and five fields of the model's own: `pending` (the queue of
commands), `now` (the clock, log 1), `agenda` (log 4), `freeCount` (log 8) and `powered`. -/
structure State where
  powered : Bool := true
  pending : List Instr := []
  now : Nat := 0
  agenda : List Notice := []
  freeCount : Nat := 0
  mode : Mode := .config
  sections : Table SectionRec := []
  fc : Chain := {}
  pu : PointUnit := {}
  ix : Interlocking := {}
  tt : Tracker := {}
  dg : Drive := {}
  tu : Turntable := {}
  vu : Visitor := {}
  ss : StopStore := {}
  hl : HostLink := {}
deriving DecidableEq, Repr

/-- The part right after the start-up sequence at power-on, with both banks of the store BLANK and the stop
loop CLOSED (R162, R163; log 9): every field at its default above, and the two reports the sequence queues. -/
def State.reset : State :=
  { hl := { reports := [.sysStoreEmpty, .sysStart .power] } }

/-- Reasons a step stops with a fault. No meaning of this model raises one: the spec answers every refusal
by a reply and turns every field fault into a state. -/
inductive Fault where
  /-- Raised by nothing: the spec names no condition that stops the part. Safe: it is never answered. -/
  | none
deriving DecidableEq, Repr

/-- Reasons a step refuses. -/
inductive Refusal where
  /-- A row whose meaning is not written yet; no arm of exec answers it in this model. Safe: the step
  stops where the part would go on. -/
  | notModelled (mnemonic : String)
deriving DecidableEq, Repr

end Sys2Proof.Machine
end

