-- ==== Sys2Proof/Machine/Ops.lean ====
section
/-! DEFINITION. The shared operations: tables, sets, timers, reports, hand-overs, and the accessors and
updates of one record of each table. -/

namespace Sys2Proof.Table

/-- The record numbered `k`, or none when it is ABSENT. -/
def find {α : Type} : Table α → Nat → Option α
  | [], _ => none
  | (j, v) :: rest, k => if j = k then some v else find rest k

/-- Writes record `k`, keeping the numbers strictly rising. -/
def put {α : Type} : Table α → Nat → α → Table α
  | [], k, v => [(k, v)]
  | (j, w) :: rest, k, v =>
    if j = k then (k, v) :: rest
    else if k < j then (k, v) :: (j, w) :: rest
    else (j, w) :: put rest k v

/-- Deletes record `k`. -/
def drop {α : Type} : Table α → Nat → Table α
  | [], _ => []
  | (j, w) :: rest, k => if j = k then drop rest k else (j, w) :: drop rest k

/-- Changes record `k` when it is DEFINED. -/
def update {α : Type} (t : Table α) (k : Nat) (f : α → α) : Table α :=
  t.map fun e => if e.1 = k then (e.1, f e.2) else e

/-- Changes every record. -/
def mapVals {α β : Type} (t : Table α) (f : α → β) : Table β :=
  t.map fun e => (e.1, f e.2)

/-- The numbers of the DEFINED records, ascending. -/
def keys {α : Type} (t : Table α) : List Nat :=
  t.map fun e => e.1

/-- The canonical form: numbers strictly rising. -/
def wf {α : Type} : Table α → Bool
  | [] => true
  | [_] => true
  | a :: b :: rest => decide (a.1 < b.1) && wf (b :: rest)

end Sys2Proof.Table

namespace Sys2Proof.Machine

open Sys2Proof

/-! ## Sets of numbers, as rising lists without repeats -/

/-- Adds `k` to a set. -/
def setInsert (k : Nat) : List Nat → List Nat
  | [] => [k]
  | j :: rest => if j = k then j :: rest else if k < j then k :: j :: rest else j :: setInsert k rest

/-- Takes `k` out of a set. -/
def setErase (k : Nat) (l : List Nat) : List Nat :=
  l.filter fun j => j != k

/-- The place of the first element that passes, counted from 1. -/
def placeOf {α : Type} (p : α → Bool) : List α → Option Nat
  | [] => none
  | a :: rest => if p a then some 1 else (placeOf p rest).map (· + 1)

/-! ## Time (log 1) -/

/-- `n` milliseconds in counts of the clock. -/
def ms (n : Nat) : Nat := n * Config.countsPerMs

/-- `n` seconds in counts of the clock. -/
def seconds (n : Nat) : Nat := ms (1000 * n)

/-- The clock moves on to `t`, never back. -/
def State.reach (s : State) (t : Nat) : State :=
  { s with now := max s.now t }

/-- A timer that runs has expired: the clock stands at its moment at least. -/
def State.expire (s : State) (t : Timer) : State :=
  match t with
  | none => s
  | some d => s.reach d

/-- The time remaining on a timer. -/
def State.left (s : State) (t : Timer) : Option Nat :=
  t.map fun d => d - s.now

/-! ## Reports (R155) -/

/-- The class of a report. -/
def Report.class : Report → ReportClass
  | .sec .. => .sec
  | .aux .. => .aux
  | .pointMoving .. | .pointAt .. | .pointLate .. | .pointLost .. | .pointDropped .. | .pointFailed .. => .point
  | .signal .. => .signal
  | .routeQueued .. | .routeDropped .. | .routeState .. | .routeOccupied .. | .routeFailed .. => .route
  | .trainActive .. | .trainLost .. | .trainFound .. | .trainUnplaced .. | .trainReleased .. | .trainAt ..
  | .trainLong .. | .trainPassedStop .. | .trainAmbiguous .. | .trainStray .. | .trainReversed ..
  | .trainConflict .. | .trainConflictClear .. => .train
  | .turnHoming | .turnMoving .. | .turnStopping | .turnStopped .. | .turnAligned .. | .turnFaultHome
  | .turnFaultDrift .. | .turnDrift .. | .turnUnhomed .. => .turn
  | .showState .. | .showAbort .. | .showLeg .. => .show
  | .board .. => .board
  | .chainCondition .. | .chainFault .. | .chainModule .. | .chainMode .. => .chain
  | .sysBreak | .sysMode .. | .sysOverflow | .sysEstop .. | .sysResumed | .sysSaved | .sysSaveFailed
  | .sysStoreEmpty | .sysStoreBad | .sysInvalid .. | .sysStart .. => .sys

/-- The report queue takes a report: of a disabled class, nothing happens; with 64 lines waiting, the
report is discarded and the overflow mark set (R155). -/
def HostLink.report (h : HostLink) (r : Report) : HostLink :=
  if h.classes.contains r.class then
    if h.reports.length < Config.reportMax then { h with reports := h.reports ++ [r] }
    else { h with overflow := true }
  else h

/-- Queues a report. -/
def State.report (s : State) (r : Report) : State :=
  { s with hl := s.hl.report r }

/-! ## Hand-overs (log 4) -/

/-- A block hands something over: it is taken after the block's own action, before what waits already. -/
def State.hand (s : State) (n : Notice) : State :=
  { s with agenda := s.agenda ++ [n] }

/-- Hands over several things, in order. -/
def State.handAll (s : State) (ns : List Notice) : State :=
  { s with agenda := s.agenda ++ ns }

/-- Asks for a re-examination of the route request queue (R62): each arrival that starts one has a pass of its
own. -/
def State.askReexamine (s : State) : State := s.hand .reexamine

/-! ## Records -/

/-- Section `x`, if DEFINED. -/
def State.section? (s : State) (x : Nat) : Option SectionRec := Table.find s.sections x

/-- Changes section `x`. -/
def State.setSection (s : State) (x : Nat) (f : SectionRec → SectionRec) : State :=
  { s with sections := Table.update s.sections x f }

/-- Point `p`, if DEFINED. -/
def State.point? (s : State) (p : Nat) : Option PointRec := Table.find s.pu.points p

/-- Changes point `p`. -/
def State.setPoint (s : State) (p : Nat) (f : PointRec → PointRec) : State :=
  { s with pu := { s.pu with points := Table.update s.pu.points p f } }

/-- Route `r`, if DEFINED. -/
def State.route? (s : State) (r : Nat) : Option RouteRec := Table.find s.ix.routes r

/-- Changes route `r`. -/
def State.setRoute (s : State) (r : Nat) (f : RouteRec → RouteRec) : State :=
  { s with ix := { s.ix with routes := Table.update s.ix.routes r f } }

/-- Signal `g`, if DEFINED. -/
def State.signal? (s : State) (g : Nat) : Option SignalRec := Table.find s.ix.signals g

/-- Train `n`, if DEFINED. -/
def State.train? (s : State) (n : Nat) : Option TrainRec := Table.find s.tt.trains n

/-- Changes train `n`. -/
def State.setTrain (s : State) (n : Nat) (f : TrainRec → TrainRec) : State :=
  { s with tt := { s.tt with trains := Table.update s.tt.trains n f } }

/-- Show `n`, if DEFINED. -/
def State.show? (s : State) (n : Nat) : Option ShowRec := Table.find s.vu.shows n

/-- Changes show `n`. -/
def State.setShow (s : State) (n : Nat) (f : ShowRec → ShowRec) : State :=
  { s with vu := { s.vu with shows := Table.update s.vu.shows n f } }

/-- Changes the turntable's live fields. -/
def State.setTurn (s : State) (f : Turntable → Turntable) : State :=
  { s with tu := f s.tu }

/-- Applies `f` to each element in turn. -/
def foldState {α : Type} (f : α → State → State) : List α → State → State
  | [], s => s
  | a :: rest, s => foldState f rest (f a s)

/-! ## Plain readings used by several blocks -/

/-- Section `x` is OCCUPIED. An ABSENT section reads CLEAR (R9). -/
def State.occupied (s : State) (x : Nat) : Bool :=
  match s.section? x with
  | some r => r.occupied
  | none => false

/-- The chain condition is HEALTHY. -/
def State.healthy (s : State) : Bool := decide (s.fc.condition = .healthy)

/-- Emergency stop is active. -/
def State.stopped (s : State) : Bool := s.ss.stop

/-- The numbers of the trains with `p`, ascending. -/
def State.trainsWith (s : State) (p : TrainRec → Bool) : List Nat :=
  (s.tt.trains.filter fun e => p e.2).map fun e => e.1

/-- The train whose list holds section `x` (R92). -/
def State.holder (s : State) (x : Nat) : Option Nat :=
  (s.trainsWith fun t => t.list.any fun e => e.sec == x).head?

/-- The lead of a train's list. -/
def TrainRec.lead (t : TrainRec) : Option ListEntry := t.list.getLast?

/-- DRIVE-CONFLICT is in the hold set (R91). -/
def TrainRec.driveConflict (t : TrainRec) : Bool := t.channelConflict || t.ambiguity.isSome

/-- The hold set is not empty (R91). -/
def TrainRec.held (t : TrainRec) : Bool :=
  t.passedStop || t.driveConflict || t.onTurn || t.reversing || t.showWait

/-- A SAVE is in flight (R161). -/
def State.saving (s : State) : Bool := s.ss.save.isSome

/-- The settings' remembered aspect caps (R85). -/
def State.capOf (s : State) : Aspect → Option Nat
  | .stop => some 0
  | .shunt => some s.ix.shuntCap
  | .caution => some s.ix.cautionCap
  | .prelim => some s.ix.prelimCap
  | .clear => none

/-- The signal that stands at end `e` of section `x`: the lowest-numbered, there being one in RUN (R15). -/
def State.signalAt (s : State) (x : Nat) (e : EndName) : Option Nat :=
  ((s.ix.signals.filter fun g => g.2.cfg.location == some (x, e)).map fun g => g.1).head?

end Sys2Proof.Machine
end

