-- ==== Sys2Proof/Machine/Layout.lean ====
section
/-! DEFINITION. LT's answers (chapter 1): ends, neighbour resolution, far ends, the roads a bridge end
faces, and a terminal's fields as the other blocks read them. -/

namespace Sys2Proof

/-- The place of a terminal in chain order. -/
def TermId.key (t : TermId) : Nat := t.module * Config.terminalsPerModule + t.terminal

/-- The ends of a kind, in the order they are visited (R2). -/
def SectionKind.ends : SectionKind → List EndName
  | .plain | .bridge => [.a, .b]
  | .point => [.toe, .normal, .reverse]

/-- The polarity end of an end (R2): true for B. -/
def EndName.polarityB : EndName → Bool
  | .a | .toe => false
  | .b | .normal | .reverse => true

/-- A bridge end as an end of the BRIDGE section. -/
def BridgeEnd.toEnd : BridgeEnd → EndName
  | .a => .a
  | .b => .b

/-- The other position of a point. -/
def PointPos.other : PointPos → PointPos
  | .n => .r
  | .r => .n

/-- The position that corresponds to N or R. -/
def PointPos.position : PointPos → Position
  | .n => .normal
  | .r => .reverse

/-- MOVING toward N or R. -/
def PointPos.moving : PointPos → Position
  | .n => .movingN
  | .r => .movingR

/-- The reading that corresponds to N or R. -/
def PointPos.reading : PointPos → Reading
  | .n => .n
  | .r => .r

end Sys2Proof

namespace Sys2Proof.Machine

open Sys2Proof

/-! ## Terminals as they are read -/

/-- The terminal at a place in chain order. -/
def termOfKey (k : Nat) : TermId := ⟨k / Config.terminalsPerModule, k % Config.terminalsPerModule⟩

/-- A terminal's configured fields; an ABSENT record is at the defaults (R22). -/
def State.terminal (s : State) (t : TermId) : TerminalCfg :=
  (Table.find s.fc.terminals (t.key)).getD {}

/-- A terminal's live fields. -/
def State.termLive (s : State) (t : TermId) : TerminalLive :=
  (Table.find s.fc.live (t.key)).getD {}

/-- The length of the module table, L (R21). -/
def tableLength : Nat → Table ModuleRec → Nat
  | _, [] => 0
  | n, (j, _) :: rest => if j = n then tableLength (n + 1) rest + 1 else 0

/-- L of the present module table. -/
def State.chainLength (s : State) : Nat := tableLength 0 s.fc.modules

/-! ## Ends -/

/-- The neighbour value an end holds. -/
def SectionCfg.neighbour (c : SectionCfg) : EndName → Neighbour
  | .a => c.endA
  | .b => c.endB
  | .toe => c.endToe
  | .normal => c.endNormal
  | .reverse => c.endReverse

/-- Writes the neighbour value of an end. -/
def SectionCfg.setNeighbour (c : SectionCfg) (e : EndName) (v : Neighbour) : SectionCfg :=
  match e with
  | .a => { c with endA := v }
  | .b => { c with endB := v }
  | .toe => { c with endToe := v }
  | .normal => { c with endNormal := v }
  | .reverse => { c with endReverse := v }

/-! ## The bridge and the roads (R7, R125) -/

/-- The position at which bridge end `e` faces a road at `p`. -/
def targetPosition (n p : Nat) : BridgeEnd → Nat
  | .a => p
  | .b => (p + n / 2) % n

/-- The lowest-numbered road that bridge end `e` faces when the bridge stands at `pos`; a road whose
position is not below N faces no end. -/
def facedRoad (n : Nat) (roads : Table RoadCfg) (pos : Nat) (e : BridgeEnd) : Option Nat :=
  ((roads.filter fun k => decide (k.2.position < n) && (targetPosition n k.2.position e == pos)).map
    fun k => k.1).head?

/-- The road at the position of a stated bridge requirement's other end. -/
def statedFacings (s : State) (k : Nat) (e : BridgeEnd) : Option Nat × Option Nat :=
  match s.tu.bridge, Table.find s.tu.roads k with
  | some b, some r =>
    let pos := targetPosition b.steps r.position e
    match e with
    | .a => (some k, facedRoad b.steps s.tu.roads pos .b)
    | .b => (facedRoad b.steps s.tu.roads pos .a, some k)
  | _, some _ => match e with
    | .a => (some k, none)
    | .b => (none, some k)
  | _, none => (none, none)

/-- Stated positions (R5): required positions of points, and a bridge requirement. -/
structure Stated where
  points : List (Nat × PointPos) := []
  bridge : Option (Nat × BridgeEnd) := none
deriving DecidableEq, Repr

/-- The roads faced by ends A and B, as neighbour resolution reads them: of the stated requirement, or of
the bridge when it is ALIGNED (R7). -/
def State.facings (s : State) (st : Stated) : Option Nat × Option Nat :=
  match st.bridge with
  | some (k, e) => statedFacings s k e
  | none => if s.tu.state = .aligned then (s.tu.faceA, s.tu.faceB) else (none, none)

/-- The position a point stands in, stated or present; none while it moves or is unknown or failed. -/
def State.pointAt (s : State) (st : Stated) (p : Nat) : Option PointPos :=
  match st.points.find? (fun q => q.1 == p) with
  | some q => some q.2
  | none =>
    match s.point? p with
    | none => none
    | some r =>
      match r.position with
      | .normal => some .n
      | .reverse => some .r
      | _ => none

/-! ## Neighbour resolution (R5, R6, R7) and far ends (R8) -/

/-- End `e` of a section of configuration `c` is a live end (R5, R6). -/
def State.liveEnd (s : State) (st : Stated) (c : SectionCfg) (e : EndName) : Bool :=
  match c.kind with
  | .plain | .bridge => c.kind.ends.contains e
  | .point =>
    match c.point.bind (s.pointAt st) with
    | none => false
    | some .n => e == .toe || e == .normal
    | some .r => e == .toe || e == .reverse

/-- The BRIDGE section: the lowest-numbered section of kind BRIDGE, where several are (the model's choice, log 51). -/
def State.bridgeSection (s : State) : Option Nat :=
  ((s.sections.filter fun x => x.2.cfg.kind == .bridge).map fun x => x.1).head?

/-- The lowest-numbered road whose section and bridge-side end are `(x, e)`, if a road names that end (R19). -/
def State.roadAt (s : State) (x : Nat) (e : EndName) : Option Nat :=
  ((s.tu.roads.filter fun k => k.2.sec == some x && k.2.bridgeEnd.toEnd == e).map fun k => k.1).head?

/-- Bridge end facing `f` faces a road whose section and bridge-side end are `(x, e)` (R7). -/
def State.facesEnd (s : State) (f : Option Nat) (x : Nat) (e : EndName) : Bool :=
  match f.bind (Table.find s.tu.roads) with
  | some k => k.sec == some x && k.bridgeEnd.toEnd == e
  | none => false

/-- The answer across a TURNTABLE end (R7). An end that several roads name is answered for the road the bridge
faces; where bridge ends A and B each face one of them, end A answers (log 37). A TURNTABLE end of any section of kind
BRIDGE is answered as an end of the bridge (the model's choice, log 67). -/
def State.resolveTurn (s : State) (st : Stated) (x : Nat) (kind : SectionKind) (e : EndName) :
    Option (Nat × EndName) :=
  let f := s.facings st
  match s.bridgeSection with
  | none => none
  | some b =>
    if kind = .bridge then
      let road := if e = .a then f.1 else f.2
      match road.bind (Table.find s.tu.roads) with
      | some r => r.sec.map fun t => (t, r.bridgeEnd.toEnd)
      | none => none
    else if s.facesEnd f.1 x e then some (b, .a)
    else if s.facesEnd f.2 x e then some (b, .b)
    else none

/-- Neighbour resolution across end `e` of section `x`, under stated positions (R5). -/
def State.resolve (s : State) (st : Stated) (x : Nat) (e : EndName) : Option (Nat × EndName) :=
  match s.section? x with
  | none => none
  | some r =>
    if r.cfg.kind.ends.contains e then
      match r.cfg.neighbour e with
      | .buffer => none
      | .turntable => s.resolveTurn st x r.cfg.kind e
      | .sectionEnd t f =>
        match s.section? t with
        | none => none
        | some q =>
          if q.cfg.kind.ends.contains f && s.liveEnd st r.cfg e && s.liveEnd st q.cfg f
          then some (t, f) else none
    else none

/-- The far end of section `x` entered through end `f` (R8). -/
def State.farEnd (s : State) (st : Stated) (x : Nat) (f : EndName) : Option EndName :=
  match s.section? x with
  | none => none
  | some r =>
    match r.cfg.kind, f with
    | .plain, .a | .bridge, .a => some .b
    | .plain, .b | .bridge, .b => some .a
    | .point, .toe =>
      match r.cfg.point.bind (s.pointAt st) with
      | some .n => some .normal
      | some .r => some .reverse
      | none => none
    | .point, .normal | .point, .reverse => some .toe
    | _, _ => none

/-- Resolution under the present positions. -/
def State.across (s : State) (x : Nat) (e : EndName) : Option (Nat × EndName) := s.resolve {} x e

/-- Far end under the present positions. -/
def State.far (s : State) (x : Nat) (f : EndName) : Option EndName := s.farEnd {} x f

/-- The section of a point: the lowest-numbered POINT section that names it (R39). -/
def State.pointSection (s : State) (p : Nat) : Option Nat :=
  ((s.sections.filter fun x => x.2.cfg.kind == .point && x.2.cfg.point == some p).map fun x => x.1).head?

/-- The section of a point is OCCUPIED; a point without a section finds it CLEAR (R39). -/
def State.pointOccupied (s : State) (p : Nat) : Bool :=
  match s.pointSection p with
  | some x => s.occupied x
  | none => false

/-! ## Occupancy (R3) -/

/-- The occupancy R3 gives for a section of configuration `c` numbered `x`: CLEAR without a detector
terminal; otherwise what the terminal named hands over, OCCUPIED while it hands nothing. -/
def State.occupancyOf (s : State) (x : Nat) (c : SectionCfg) : Bool :=
  match c.detector with
  | none => false
  | some t => !((s.terminal t).role == .detect x && (s.termLive t).handed == some false)

/-- LT writes the occupancy of section `x`; a change is an occupancy event, reported and handed on (R3). -/
def setOccupied (x : Nat) (v : Bool) (s : State) : State :=
  match s.section? x with
  | none => s
  | some r =>
    if r.occupied = v then s
    else ((s.setSection x fun q => { q with occupied := v }).report (.sec x v)).hand (.occupancy x v)

/-- LT takes the value its detector terminal hands over (R3). -/
def refreshSection (x : Nat) (s : State) : State :=
  match s.section? x with
  | none => s
  | some r => setOccupied x (s.occupancyOf x r.cfg) s

end Sys2Proof.Machine
end

