-- ==== Sys2Proof/Machine/Points.lean ====
section
/-! DEFINITION. The point unit, PU (chapter 3): throws, the throw queue, the supply, pulses, detection. -/

namespace Sys2Proof.Machine

open Sys2Proof

/-! ## Readings of a point -/

/-- A point with both detection terminals is a detected point (R39). -/
def PointCfg.detected (c : PointCfg) : Bool := c.detN.isSome && c.detR.isSome

/-- Point `p` stands in `pos` (R58). -/
def State.stands (s : State) (p : Nat) (pos : PointPos) : Bool :=
  match s.point? p with
  | some r => r.position == pos.position
  | none => false

/-- The position a route requires of a point, as a point or as a flank requirement (R56). Of a flank list that names the
point twice, in opposite positions, the first entry listed is the one required (the model's choice, log 72). -/
def RouteCfg.requires (c : RouteCfg) (p : Nat) : Option PointPos :=
  match c.points.find? (fun q => q.1 == p) with
  | some q => some q.2
  | none => (c.flanks.find? (fun q => q.1 == p)).map fun q => q.2

/-- Some route in the lock set of `p` requires the position other than `pos`. -/
def State.lockedAgainst (s : State) (p : Nat) (pos : PointPos) : Bool :=
  match s.point? p with
  | none => false
  | some r =>
    r.locks.any fun k =>
      match s.route? k with
      | some q => q.cfg.requires p == some pos.other
      | none => false

/-- The value a detection terminal hands the point unit: present only while the terminal named carries
the role and hands present (R34, R42). -/
def State.detPresent (s : State) (p : Nat) (pos : PointPos) (t : Option TermId) : Bool :=
  match t with
  | none => false
  | some id => (s.terminal id).role == .pointDet p pos && (s.termLive id).handed == some true

/-- The reading of two detection values (R40). -/
def readingOf : Bool → Bool → Reading
  | true, true => .both
  | true, false => .n
  | false, true => .r
  | false, false => .neither

/-- The reading of point `p` as the handed values give it (R40); the single detection terminal of an undetected
point is not read, so its reading is NEITHER (R39). -/
def State.readingNow (s : State) (p : Nat) (c : PointCfg) : Reading :=
  if c.detected then readingOf (s.detPresent p .n c.detN) (s.detPresent p .r c.detR) else .neither

/-! ## Changes of position (R41) -/

/-- Changes a point's record, queues the report of its cause and hands the change on (R41). -/
def changePoint (p : Nat) (f : PointRec → PointRec) (rep : Report) (e : PointEvent) (s : State) : State :=
  ((s.setPoint p f).report rep).hand (.pointChange p e)

/-- What the interlocking is handed of a drop, by its cause (R66, R67). -/
def dropEvent : DropCause → PointEvent
  | .cancel => .withdrawn
  | _ => .dropped

/-- A dropped entry: its point becomes UNKNOWN with commanded position none, at rest; a pulse in progress
runs on (R45, R49; with cause STOP too, log 38). -/
def dropPoint (p : Nat) (cause : DropCause) (s : State) : State :=
  changePoint p (fun r => { r with
      position := .unknown, commanded := none,
      phase := if r.phase = .pulsingQueued then .pulsing else .atRest })
    (.pointDropped p cause) (dropEvent cause) s

/-- Takes the entry of point `p` out of the throw queue. -/
def State.unqueue (s : State) (p : Nat) : State :=
  { s with pu := { s.pu with queue := s.pu.queue.filter fun e => e.1 != p } }

/-! ## Pulses (R45, R46, R47) -/

/-- The pulse of point `p` toward `pos` starts (R45, R46). -/
def startPulse (p : Nat) (pos : PointPos) (s : State) : State :=
  let len := match s.point? p with
    | some r => r.cfg.pulseLength
    | none => 0
  let scans := (len + s.fc.periodInForce - 1) / s.fc.periodInForce
  let s1 := s.setPoint p fun r => { r with phase := .pulsing }
  { s1 with pu := { s1.pu with
      supply := .pulsing { point := p, pos := pos, scans := scans, startedAt := s.fc.composed } } }

/-- The queue is worked from its oldest entry until a pulse starts or it is empty (R45). The first argument
bounds the entries. -/
def pulseFrom : Nat → State → State
  | 0, s => s
  | k + 1, s =>
    match s.pu.queue with
    | [] => s
    | (p, pos) :: rest =>
      let s1 := { s with pu := { s.pu with queue := rest } }
      if s1.pointOccupied p then pulseFrom k ((dropPoint p .occ s1).askReexamine)
      else if s1.lockedAgainst p pos then pulseFrom k ((dropPoint p .lock s1).askReexamine)
      else (startPulse p pos s1).askReexamine

/-- A pulse start is considered: not while the chain is not HEALTHY or emergency stop is active, and only
from READY (R45). -/
def considerPulse (s : State) : State :=
  if s.pu.supply = .ready ∧ s.healthy = true ∧ s.stopped = false then pulseFrom s.pu.queue.length s else s

/-- A throw completes: the point stands in `pos` at rest, its flag is cleared (R47). -/
def completeThrow (p : Nat) (pos : PointPos) (s : State) : State :=
  let flagged := match s.point? p with
    | some r => r.failed
    | none => false
  let s1 := changePoint p (fun r => { r with
      position := pos.position, phase := .atRest, failed := false, detTimer := none })
    (.pointAt p pos) .placed s
  if flagged then s1.askReexamine else s1

/-- The pulse in progress ends (R47). A point whose newer entry was withdrawn or dropped is AT-REST and stays
UNKNOWN, without a detection wait (R49; log 38). -/
def endPulse (s : State) : State :=
  match s.pu.supply with
  | .pulsing q =>
    let s1 := { s with pu := { s.pu with supply := .recharging (s.now + ms s.pu.recharge) } }
    match s1.point? q.point with
    | none => s1
    | some r =>
      if r.phase = .pulsingQueued then s1.setPoint q.point fun r => { r with phase := .queued }
      else if r.commanded = none then s1.setPoint q.point fun r => { r with phase := .atRest }
      else if r.cfg.detected then
        if r.reading = q.pos.reading then completeThrow q.point q.pos s1
        else s1.setPoint q.point fun r => { r with
          phase := .awaiting, detTimer := some (s1.now + ms s1.pu.detectTimeout) }
      else completeThrow q.point q.pos s1
  | _ => s

/-- The coil of the pulse in progress is supplied OFF from now on (R46, R50). -/
def cutPulse (s : State) : State :=
  match s.pu.supply with
  | .pulsing q =>
    if q.offAt.isSome then s
    else { s with pu := { s.pu with supply := .pulsing { q with offAt := some s.fc.composed } } }
  | _ => s

/-- The completion of an UPDATE whose image was the `n`-th composed: it ends the pulse when its image was composed after
OFF was supplied, and is counted when it was composed after the start (R46, R50). -/
def pointsUpdate (n : Nat) (s : State) : State :=
  match s.pu.supply with
  | .pulsing q =>
    if q.offAt.any fun a => decide (a < n) then endPulse s
    else if q.startedAt < n then
      let s1 := { s with pu := { s.pu with supply := .pulsing { q with count := q.count + 1 } } }
      if q.count + 1 ≥ q.scans then cutPulse s1 else s1
    else s
  | _ => s

/-! ## Detection (R42, R47, R48) -/

/-- A changed reading of a detected point at rest is judged against its commanded position (R42). -/
def judgeAtRest (p : Nat) (r : PointRec) (s : State) : State :=
  match r.commanded with
  | none =>
    match r.reading with
    | .n => changePoint p (fun q => { q with position := .normal, commanded := some .n }) (.pointAt p .n) .placed s
    | .r => changePoint p (fun q => { q with position := .reverse, commanded := some .r }) (.pointAt p .r) .placed s
    | _ => s
  | some c =>
    if r.reading = c.reading then
      match r.position with
      | .unknown => changePoint p (fun q => { q with position := c.position }) (.pointAt p c) .placed s
      | .failed => changePoint p (fun q => { q with position := c.position }) (.pointLate p c) .placed s
      | _ => s
    else
      match r.position with
      | .normal | .reverse => changePoint p (fun q => { q with position := .unknown }) (.pointLost p) .moved s
      | _ => s

/-- The point unit takes the detection values as they are handed now (R40, R42, R47). -/
def refreshPoint (p : Nat) (s : State) : State :=
  match s.point? p with
  | none => s
  | some r =>
    let now := s.readingNow p r.cfg
    if now = r.reading then s
    else
      let s1 := s.setPoint p fun q => { q with reading := now }
      if r.cfg.detected then
        match r.phase with
        | .atRest => judgeAtRest p { r with reading := now } s1
        | .awaiting =>
          match r.commanded with
          | some c => if now = c.reading then completeThrow p c s1 else s1
          | none => s1
        | _ => s1
      else s1

/-- The detection timer of an AWAITING point expires (R48). -/
def detectionTimeout (p : Nat) (s : State) : State :=
  match s.point? p with
  | none => s
  | some r =>
    if r.phase = .awaiting ∧ r.detTimer.isSome then
      changePoint p (fun q => { q with position := .failed, failed := true, phase := .atRest, detTimer := none })
        (.pointFailed p) .failed (s.expire r.detTimer)
    else s

/-! ## The throw queue (R43) -/

/-- A throw of `p` toward `pos` would add an entry to the queue (R43). -/
def throwAdds (s : State) (p : Nat) (pos : PointPos) : Bool :=
  match s.point? p with
  | none => false
  | some r =>
    match r.phase with
    | .atRest => r.position != pos.position
    | .pulsing | .awaiting => r.commanded != some pos
    | .queued | .pulsingQueued => false

/-- A throw of `p` toward `pos` would be refused FULL (R43). -/
def throwFull (s : State) (p : Nat) (pos : PointPos) : Bool :=
  throwAdds s p pos && decide (Config.throwQueueMax ≤ s.pu.queue.length)

/-- The commanded position becomes `pos`, and the position MOVING toward it unless it is already (R43). -/
def commandPoint (p : Nat) (pos : PointPos) (ph : Phase) (s : State) : State :=
  match s.point? p with
  | none => s
  | some r =>
    if r.position = pos.moving then
      s.setPoint p fun q => { q with commanded := some pos, phase := ph, detTimer := none }
    else
      changePoint p (fun q => { q with
        commanded := some pos, phase := ph, detTimer := none, position := pos.moving })
        (.pointMoving p pos) .moved s

/-- Entry `(p, pos)` joins the back of the queue; a pulse start is considered (R43, R45). -/
def joinQueue (p : Nat) (pos : PointPos) (ph : Phase) (s : State) : State :=
  let s1 := { s with pu := { s.pu with queue := s.pu.queue ++ [(p, pos)] } }
  considerPulse (commandPoint p pos ph s1)

/-- The queued entry of `p` takes the position `pos` in place (R43). -/
def replaceEntry (p : Nat) (pos : PointPos) (ph : Phase) (s : State) : State :=
  let s1 := { s with pu := { s.pu with
    queue := s.pu.queue.map fun e => if e.1 = p then (p, pos) else e } }
  commandPoint p pos ph s1

/-- A throw request that is not refused FULL is taken by the point's throw phase (R43). A PULSING point whose
commanded position is none, its newer entry gone, takes an entry toward either position (log 39). -/
def throwPoint (p : Nat) (pos : PointPos) (s : State) : State :=
  match s.point? p with
  | none => s
  | some r =>
    match r.phase with
    | .atRest => if r.position = pos.position then s else joinQueue p pos .queued s
    | .queued => if r.commanded = some pos then s else replaceEntry p pos .queued s
    | .pulsing => if r.commanded = some pos then s else joinQueue p pos .pulsingQueued s
    | .awaiting => if r.commanded = some pos then s else joinQueue p pos .queued s
    | .pulsingQueued => if r.commanded = some pos then s else replaceEntry p pos .pulsingQueued s

/-- The interlocking withdraws the queued entry of a point (R49). -/
def withdrawThrow (p : Nat) (s : State) : State :=
  if s.pu.queue.any (fun e => e.1 == p) then ((dropPoint p .cancel (s.unqueue p))).askReexamine else s

/-- What PU does when emergency stop becomes active (R50): every entry dropped with cause STOP, oldest
first, and a pulse in progress cut short. -/
def pointsStop (s : State) : State :=
  let entries := s.pu.queue
  let s1 := foldState (fun e s => (dropPoint e.1 .stop (s.unqueue e.1)).askReexamine) entries s
  cutPulse s1

/-- The recharge timer expires (R44). -/
def rechargeExpiry (s : State) : State :=
  match s.pu.supply with
  | .recharging due =>
    let s1 := s.reach due
    considerPulse { s1 with pu := { s1.pu with supply := .ready } }
  | _ => s

/-- Every coil output has been cleared: a pulse in progress ends at this notice (R46). -/
def coilsCleared (s : State) : State := endPulse s

/-! ## POINT p N, POINT p R (R51) -/

/-- The failure flag of `p` is cleared (R48), which starts a re-examination (R62). -/
def clearFlag (p : Nat) (s : State) : State :=
  match s.point? p with
  | none => s
  | some r => if r.failed then (s.setPoint p fun q => { q with failed := false }).askReexamine else s

/-- POINT p N and POINT p R: the first condition of R51's table decides. -/
def cmdPoint (p : Nat) (pos : PointPos) (s : State) : State × Reply :=
  if Config.maxPoints ≤ p then (s, .no .range none)
  else
    match s.point? p with
    | none => (s, .no .unknown none)
    | some r =>
      if s.stopped then (s, .no .stopped none)
      else if r.locks ≠ [] then (s, .no .locked none)
      else if r.phase = .atRest ∧ r.position = pos.position then (clearFlag p s, .ok .bare)
      else if s.pointOccupied p then (s, .no .occupied none)
      else if throwFull s p pos then (s, .no .full none)
      else (throwPoint p pos (clearFlag p s), .ok .bare)

end Sys2Proof.Machine
end

