-- ==== Sys2Proof/Machine/Signals.lean ====
section
/-! DEFINITION. Signals and aspects (chapter 5): the led route, the one assignment of aspects, stop cuts,
lamps, and the handing of changes. -/

namespace Sys2Proof

/-- The aspect of a MAIN route to a signal, from the exit signal's aspect (R81). -/
def Aspect.inRear : Aspect → Aspect
  | .stop | .shunt => .caution
  | .caution => .prelim
  | .prelim | .clear => .clear

end Sys2Proof

namespace Sys2Proof.Machine

open Sys2Proof

/-- The route a signal leads: the route that is not IDLE and whose entry signal it is (R57, R79). -/
def State.ledRoute (s : State) (g : Nat) : Option Nat :=
  ((s.ix.routes.filter fun r => r.2.cfg.entry == some g && r.2.state != .idle).map fun r => r.1).head?

/-- Every path and overlap section is CLEAR, save the final path section of a SHUNT route (R80, condition 4). -/
def State.routeClear (s : State) (c : RouteCfg) : Bool :=
  let path := if c.type = .shunt then c.path.dropLast else c.path
  (path ++ c.overlap).all fun x => !s.occupied x

/-- Every point requirement and flank requirement is met (R80, condition 5; R65). -/
def State.pointsProven (s : State) (c : RouteCfg) : Bool :=
  (c.points ++ c.flanks).all fun q => s.stands q.1 q.2

/-- The bridge requirement, if any, is met (R80, condition 6; R65). -/
def State.bridgeProven (s : State) (c : RouteCfg) : Bool :=
  match c.bridge with
  | none => true
  | some (k, e) =>
    s.tu.state == .aligned && (match e with
      | .a => s.tu.faceA == some k
      | .b => s.tu.faceB == some k)

/-- The conditions of R80 for a route of record `r`. -/
def State.proceeds (s : State) (r : RouteRec) : Bool :=
  r.state == .set && !s.stopped && s.healthy && s.routeClear r.cfg && s.pointsProven r.cfg
    && s.bridgeProven r.cfg

/-- The aspect of signal `g` with `k` signals looked ahead (R80, R81). Three are enough: the aspect three
signals in rear of any signal does not depend on it (section 5.3). -/
def State.aspectAt (s : State) : Nat → Nat → Aspect
  | 0, _ => .clear
  | k + 1, g =>
    match (s.ledRoute g).bind s.route? with
    | none => .stop
    | some r =>
      if s.proceeds r then
        match r.cfg.type, r.cfg.exit with
        | .shunt, _ => .shunt
        | .main, .buffer | .main, .road _ => .caution
        | .main, .signal h =>
          match s.signal? h with
          | none => .caution
          | some _ => (s.aspectAt k h).inRear
      else .stop

/-- The aspect that the one assignment of section 5.3 gives signal `g` (R82). -/
def State.aspectNow (s : State) (g : Nat) : Aspect := s.aspectAt 4 g

/-- Some ACTIVE train has in its list an entry at `loc` that is not its lead (R87). -/
def State.rearAt (s : State) (loc : Nat × EndName) : Bool :=
  s.tt.trains.any fun t =>
    t.2.state == .active && t.2.list.dropLast.any fun e => e.sec == loc.1 && e.exit == loc.2

/-- The stop cut of a signal of configuration `c` at `aspect` (R87). -/
def State.cutOf (s : State) (c : SignalCfg) (aspect : Aspect) : Bool :=
  c.stopSection.isSome && aspect == .stop && !(match c.location with
    | some loc => s.rearAt loc
    | none => false)

/-- Brings every aspect and every stop cut up to date (R82, R87). -/
def refreshSignals (s : State) : State :=
  { s with ix := { s.ix with
      signals := s.ix.signals.map fun e =>
        let a := s.aspectNow e.1
        (e.1, { e.2 with aspect := a, stopCut := s.cutOf e.2.cfg a }) } }

/-- The aspects as they stand, signal by signal. -/
def State.aspects (s : State) : List (Nat × Aspect) :=
  s.ix.signals.map fun e => (e.1, e.2.aspect)

/-- The aspect a list of aspects gives signal `g`; STOP for a signal it does not hold. -/
def aspectIn (l : List (Nat × Aspect)) (g : Nat) : Aspect := (Table.find l g).getD .stop

/-- Reports the signals of a list whose aspect is not what it was, in ascending order, and sets the
governor's fallen mark of each that went from a proceed aspect to STOP (R83, R115); a fall of the arrival that
makes emergency stop active leaves its mark clear (R123). -/
def handAspects (before : List (Nat × Aspect)) : List (Nat × Aspect) → State → State
  | [], s => s
  | (g, a) :: rest, s =>
    let old := aspectIn before g
    if old = a then handAspects before rest s
    else
      let s1 := s.report (.signal g a)
      let s2 := if a = .stop ∧ s1.stopped = false
        then { s1 with dg := { s1.dg with fallen := setInsert g s1.dg.fallen } } else s1
      handAspects before rest s2

/-- The end of an arrival: aspects brought up to date, changes handed and reported (R82, R83). -/
def settleSignals (before : List (Nat × Aspect)) (s : State) : State :=
  let s1 := refreshSignals s
  handAspects before s1.aspects s1

/-! ## Lamps (R78, R86) -/

/-- The lamps of a signal (R78). -/
def SignalCfg.lamps (c : SignalCfg) : List Lamp :=
  (match c.head with
    | .two => [.red, .green]
    | .three => [.red, .yellow, .green]
    | .four => [.red, .yellow, .yellow2, .green]) ++ (if c.shuntLamp then [.shunt] else [])

/-- The terminal of a lamp. -/
def SignalCfg.lampTerminal (c : SignalCfg) : Lamp → Option TermId
  | .red => c.red
  | .yellow => c.yellow
  | .yellow2 => c.yellow2
  | .green => c.green
  | .shunt => c.shunt

/-- Writes the terminal of a lamp. -/
def SignalCfg.setLamp (c : SignalCfg) (l : Lamp) (t : Option TermId) : SignalCfg :=
  match l with
  | .red => { c with red := t }
  | .yellow => { c with yellow := t }
  | .yellow2 => { c with yellow2 := t }
  | .green => { c with green := t }
  | .shunt => { c with shunt := t }

/-- The output value of a lamp (R86). -/
def lampValue (c : SignalCfg) (a : Aspect) (l : Lamp) : OutValue :=
  match a, c.head, l with
  | .stop, _, .red => .on
  | .shunt, _, .red => if c.shuntLamp then .on else .flash
  | .shunt, _, .shunt => if c.shuntLamp then .on else .off
  | .caution, .two, .green => .on
  | .caution, .three, .yellow | .caution, .four, .yellow => .on
  | .prelim, .two, .green | .prelim, .three, .green => .on
  | .prelim, .four, .yellow | .prelim, .four, .yellow2 => .on
  | .clear, _, .green => .on
  | _, _, _ => .off

end Sys2Proof.Machine
end

