-- ==== Sys2Proof/Machine/Turntable.lean ====
section
/-! DEFINITION. The turntable unit, TU (chapter 8): requests, moves, homing, steps, drift, stopping. -/

namespace Sys2Proof.Machine

open Sys2Proof

/-- What a refusal names: a code and an object. -/
abbrev RefusalWords := Code × Option Obj

/-- Steps are being issued: TEN is asserted (R126). -/
def BridgeState.steps : BridgeState → Bool
  | .homing | .moving | .stopping => true
  | _ => false

/-- The TEN pin (R126). -/
def Turntable.ten (t : Turntable) : Bool := BridgeState.steps t.state

/-- The train whose list is the bridge section alone. -/
def State.aloneOnBridge (s : State) : Option Nat :=
  match s.bridgeSection with
  | none => none
  | some b => (s.trainsWith fun t => t.list.length == 1 && t.list.any fun e => e.sec == b).head?

/-- The carriage test passes (R130). -/
def State.carriagePasses (s : State) : Bool :=
  match s.bridgeSection with
  | none => true
  | some b =>
    let inList := fun (t : TrainRec) => t.list.any fun e => e.sec == b
    !(s.tt.trains.any fun t => inList t.2 && (t.2.list.length != 1 || t.2.current != 0))
      && !(s.occupied b && !(s.tt.trains.any fun t => inList t.2))

/-- Some route of the bridge lock set has a requirement other than `(k, e)`. -/
def State.bridgeLockedAgainst (s : State) (k : Nat) (e : BridgeEnd) : Bool :=
  s.tu.locks.any fun r =>
    match s.route? r with
    | some q => q.cfg.bridge != some (k, e)
    | none => false

/-- The refusal R129's table gives a move request toward road `k` and end `e`, or none. -/
def moveRefusal (s : State) (k : Nat) (e : BridgeEnd) (origin : Origin) : Option RefusalWords :=
  if Config.maxRoads ≤ k then some (.range, none)
  else
    match s.tu.bridge, Table.find s.tu.roads k with
    | some b, some road =>
      if b.steps ≤ road.position then some (.range, some (.road k))
      else if s.stopped then some (.stopped, none)
      else if s.tu.state = .unhomed ∨ s.tu.state = .homing ∨ s.tu.state = .fault then
        some (.state, some .turntable)
      else if s.tu.state = .moving ∨ s.tu.state = .stopping then some (.busy, none)
      else if !s.healthy then some (.state, some .chain)
      else if (match origin with
          | .route _ => s.bridgeLockedAgainst k e
          | _ => s.tu.locks != []) then some (.locked, some .turntable)
      else if !s.carriagePasses then some (.occupied, some .turntable)
      else none
    | _, _ => some (.unknown, none)

/-! ## The carried train (R131) -/

/-- Train `n` becomes the carried train and takes ON-TURN. -/
def carry (n : Nat) (s : State) : State :=
  ((s.setTrain n fun t => { t with onTurn := true }).setTurn fun t => { t with carried := some n }).hand
    (.holdsChange n)

/-- At the start of a move or homing, a train whose list is the bridge section alone is carried. -/
def takeCarried (s : State) : State :=
  match s.aloneOnBridge with
  | some n => carry n s
  | none => s

/-- ON-TURN leaves the carried train, and nothing is carried. -/
def releaseCarried (s : State) : State :=
  match s.tu.carried with
  | none => s
  | some n =>
    ((s.setTrain n fun t => { t with onTurn := false }).setTurn fun t => { t with carried := none }).hand
      (.holdsChange n)

/-- A train placed or re-found in the bridge section while the bridge turns is carried (R131). -/
def carryPlaced (n x : Nat) (s : State) : State :=
  if BridgeState.steps s.tu.state ∧ s.bridgeSection = some x then carry n s else s

/-- A carried train that becomes LOST or is removed ceases to be carried (R131). -/
def dropCarried (n : Nat) (s : State) : State :=
  if s.tu.carried = some n then releaseCarried s else s

/-! ## The end of stepping -/

/-- Stepping ends: no step is due, the rate is 0, TDIR is no longer held (log 8). -/
def endStepping (s : State) : State :=
  { s with
    tu := { s.tu with rate := 0, stepDue := none, rateDue := none, tdir := Config.freeLevel s.freeCount }
    freeCount := s.freeCount + 1 }

/-- The report of a bridge that has come to rest at `pos` (R127). -/
def restReport (mv : Option Move) (pos : Nat) (fa fb : Option Nat) : Report :=
  match mv with
  | some m =>
    if m.target = pos then .turnAligned m.road m.bridgeEnd
    else match fa, fb with
      | some k, _ => .turnAligned k .a
      | none, some k => .turnAligned k .b
      | none, none => .turnStopped pos
  | none => match fa, fb with
      | some k, _ => .turnAligned k .a
      | none, some k => .turnAligned k .b
      | none, none => .turnStopped pos

/-- The origin of a move that has ended is told (R127). A route is told of the move it asked in its present
setting alone, and asks no longer (R66, R134). -/
def tellOrigin (m : Move) (out : MoveOutcome) (s : State) : State :=
  match m.origin with
  | .route r =>
    if (s.route? r).any fun q => q.asked then
      (s.setRoute r fun q => { q with asked := false }).hand (.moveEnded (.route r) out)
    else s
  | o => s.hand (.moveEnded o out)

/-- The bridge comes to rest at a known position: the facings are judged, the state becomes ALIGNED or
STOPPED, the change is reported and handed, the carried train is released and the move's origin told
(R125, R127, R128, R133, R134, R135). -/
def restAt (pos : Nat) (s : State) : State :=
  match s.tu.bridge with
  | none => s
  | some b =>
    let fa := facedRoad b.steps s.tu.roads pos .a
    let fb := facedRoad b.steps s.tu.roads pos .b
    let st : BridgeState := if fa.isSome || fb.isSome then .aligned else .stopped
    let mv := s.tu.move
    let s1 := (endStepping s).setTurn fun t => { t with
      state := st, position := some pos, faceA := fa, faceB := fb, move := none }
    let s2 := releaseCarried ((s1.report (restReport mv pos fa fb)).hand .bridgeChange)
    match mv with
    | some m => tellOrigin m (if m.target = pos then .atTarget else .elsewhere) s2
    | none => s2

/-- The bridge goes to a state in which its position is not known: FAULT or UNHOMED. -/
def losePosition (st : BridgeState) (rep : Report) (s : State) : State :=
  let mv := s.tu.move
  let s1 := (endStepping s).setTurn fun t => { t with
    state := st, position := none, faceA := none, faceB := none, move := none }
  let s2 := releaseCarried ((s1.report rep).hand .bridgeChange)
  match mv with
  | some m => tellOrigin m .fault s2
  | none => s2

/-- A definition of the roads judges the facings again while the bridge is ALIGNED or STOPPED (R125). -/
def judgeFacings (s : State) : State :=
  match s.tu.bridge, s.tu.position with
  | some b, some pos =>
    if s.tu.state = .aligned ∨ s.tu.state = .stopped then
      let fa := facedRoad b.steps s.tu.roads pos .a
      let fb := facedRoad b.steps s.tu.roads pos .b
      let st : BridgeState := if fa.isSome || fb.isSome then .aligned else .stopped
      let s1 := s.setTurn fun t => { t with state := st, faceA := fa, faceB := fb }
      if st = s.tu.state then s1 else (s1.report (restReport none pos fa fb)).hand .bridgeChange
    else s
  | _, _ => s

/-! ## Moves and homing (R128, R131) -/

/-- The step interval at a rate, in counts of the time-base (R128, R132). -/
def stepInterval (rate : Nat) : Nat := 4000000 / rate

/-- The direction and the steps of a move of `d` steps clockwise (R131). -/
def chooseDir (n d : Nat) (dir : Option MoveDir) : MoveDir × Nat :=
  match dir with
  | some .cw => (.cw, d)
  | some .ccw => (.ccw, n - d)
  | none => if d ≤ n - d then (.cw, d) else (.ccw, n - d)

/-- How a move that is taken begins (R131): the direction, or none when the bridge already stands at the
target. -/
def beginMove (k : Nat) (e : BridgeEnd) (dir : Option MoveDir) (origin : Origin) (s : State) :
    State × Option MoveDir :=
  match s.tu.bridge, Table.find s.tu.roads k, s.tu.position with
  | some b, some road, some pos =>
    let target := targetPosition b.steps road.position e
    let d := (target + b.steps - pos) % b.steps
    if d = 0 then (s, none)
    else
      let (way, toGo) := chooseDir b.steps d dir
      let iv := stepInterval b.rMin
      let s1 := s.setTurn fun t => { t with
        state := .moving, faceA := none, faceB := none
        move := some { target := target, road := k, bridgeEnd := e, dir := way, toGo := toGo, origin := origin }
        rate := b.rMin, tdir := (way == .cw), interval := iv, shadowInterval := iv
        stepDue := some (s.now + iv), rateDue := some (s.now + ms 10) }
      (takeCarried ((s1.report (.turnMoving k e way)).hand .bridgeChange), some way)
  | _, _, _ => (s, none)

/-- A move request (R129, R131): the refusal, or the state after it and the direction if a move started. -/
def requestMove (k : Nat) (e : BridgeEnd) (dir : Option MoveDir) (origin : Origin) (s : State) :
    Except RefusalWords (State × Option MoveDir) :=
  match moveRefusal s k e origin with
  | some r => .error r
  | none => .ok (beginMove k e dir origin s)

/-- A homing that is taken begins (R128). -/
def beginHoming (b : BridgeCfg) (s : State) : State :=
  let iv := stepInterval b.rMin
  let s1 := s.setTurn fun t => { t with
    state := .homing, position := none, faceA := none, faceB := none, homingCount := 0, rate := b.rMin
    tdir := true, interval := iv, shadowInterval := iv, stepDue := some (s.now + iv), rateDue := none }
  takeCarried ((s1.report .turnHoming).hand .bridgeChange)

/-! ## Steps and rates (R132, R134) -/

/-- The position one step on. -/
def stepPosition (n pos : Nat) : MoveDir → Nat
  | .cw => (pos + 1) % n
  | .ccw => (pos + n - 1) % n

/-- A step of the bridge is issued (R128, R132, R133). -/
def bridgeStep (s : State) : State :=
  match s.tu.bridge with
  | none => s
  | some b =>
    match s.tu.state, s.tu.move, s.tu.position with
    | .homing, _, _ =>
      let s1 := (s.expire s.tu.stepDue).setTurn fun t => { t with
        pulses := t.pulses + 1, homingCount := t.homingCount + 1 }
      if 11 * b.steps / 10 ≤ s1.tu.homingCount then losePosition .fault .turnFaultHome s1
      else s1.setTurn fun t => { t with stepDue := some (s1.now + t.interval) }
    | .moving, some m, some pos | .stopping, some m, some pos =>
      let pos' := stepPosition b.steps pos m.dir
      let s1 := (s.expire s.tu.stepDue).setTurn fun t => { t with
        pulses := t.pulses + 1, position := some pos', move := some { m with toGo := m.toGo - 1 }
        interval := t.shadowInterval }
      if m.toGo ≤ 1 then restAt pos' s1
      else s1.setTurn fun t => { t with stepDue := some (s1.now + t.interval) }
    | _, _, _ => s

/-- The top rate of a move (R124). -/
def BridgeCfg.top (b : BridgeCfg) : Nat := max b.rMax b.rMin

/-- The change of rate at one update, a (R132). -/
def BridgeCfg.rateStep (b : BridgeCfg) : Nat := max 1 (b.accel / 100)

/-- The braking distance from rate `r` (R132). -/
def BridgeCfg.braking (b : BridgeCfg) (r : Nat) : Nat := (r * r - b.rMin * b.rMin) / (2 * b.accel) + 1

/-- The rate after an update in MOVING with `toGo` steps to go (R132). -/
def BridgeCfg.nextRate (b : BridgeCfg) (r toGo : Nat) : Nat :=
  if b.braking r < toGo then (if r < b.top then min (r + b.rateStep) b.top else r)
  else if b.rMin < r then max (r - b.rateStep) b.rMin else r

/-- Writes a new rate; its interval goes to the shadow (R132). -/
def setRate (r : Nat) (s : State) : State :=
  s.setTurn fun t => { t with rate := r, shadowInterval := stepInterval r }

/-- The 10 ms rate update (R132, R134). -/
def rateUpdate (s : State) : State :=
  match s.tu.bridge, s.tu.state, s.tu.move, s.tu.position with
  | some b, .moving, some m, some _ =>
    let s1 := s.expire s.tu.rateDue
    setRate (b.nextRate s.tu.rate m.toGo) (s1.setTurn fun t => { t with rateDue := some (s1.now + ms 10) })
  | some b, .stopping, some _, some pos =>
    let s1 := s.expire s.tu.rateDue
    if b.rMin < s.tu.rate then
      setRate (max (s.tu.rate - b.rateStep) b.rMin) (s1.setTurn fun t => { t with rateDue := some (s1.now + ms 10) })
    else restAt pos s1
  | _, _, _, _ => s

/-! ## The home sensor (R128, R136) -/

/-- The drift read at the edge (R136). -/
def driftOf (n pos : Nat) : Int :=
  if pos < n / 2 then (pos : Int) else (pos : Int) - (n : Int)

/-- The correction of a drift `d` runs along the direction of travel (R136). -/
def alongTravel (d : Int) : MoveDir → Bool
  | .cw => decide (d < 0)
  | .ccw => decide (0 < d)

/-- A drift check during a move (R136). A drift greater than the steps to go ends the move at position 0, whatever the
target (the model's choice, log 57). -/
def driftCheck (n : Nat) (m : Move) (pos : Nat) (s : State) : State :=
  let d := driftOf n pos
  let size := d.natAbs
  if 32 < size then losePosition .fault (.turnFaultDrift d) s
  else
    let s1 := if 3 ≤ size then s.report (.turnDrift d) else s
    if alongTravel d m.dir then
      if size < m.toGo then
        s1.setTurn fun t => { t with position := some 0, move := some { m with toGo := m.toGo - size } }
      else restAt 0 (s1.setTurn fun t => { t with
        position := some 0, move := some { m with toGo := 0 } })
    else s1.setTurn fun t => { t with position := some 0, move := some { m with toGo := m.toGo + size } }

/-- A rising edge on THOME (R128, R136). -/
def homeEdge (s : State) : State :=
  match s.tu.bridge, s.tu.state, s.tu.move, s.tu.position with
  | some _, .homing, _, _ => restAt 0 s
  | some b, .moving, some m, some pos | some b, .stopping, some m, some pos => driftCheck b.steps m pos s
  | _, _, _, _ => s

/-! ## Emergency stop (R135) and the commands (R128, R129, R134) -/

/-- What TU does when emergency stop becomes active (R135). -/
def turntableStop (s : State) : State :=
  match s.tu.state, s.tu.position with
  | .homing, _ => losePosition .unhomed (.turnUnhomed false) s
  | .moving, some pos | .stopping, some pos => restAt pos s
  | _, _ => s

/-- TURN k E (R129). An end that is neither A nor B is out of range. -/
def cmdTurn (k : Nat) (e : Option BridgeEnd) (dir : Option MoveDir) (s : State) : State × Reply :=
  match e with
  | none => (s, .no .range none)
  | some e =>
    match requestMove k e dir .link s with
    | .error (c, o) => (s, .no c o)
    | .ok (s1, some way) => (s1, .ok (.turnMoving k e way))
    | .ok (s1, none) => (s1, .ok (.turnAligned k e))

/-- TURN HOME (R128). -/
def cmdTurnHome (s : State) : State × Reply :=
  match s.tu.bridge with
  | none => (s, .no .unknown none)
  | some b =>
    if s.stopped then (s, .no .stopped none)
    else if s.tu.ten then (s, .no .busy none)
    else if !s.healthy then (s, .no .state (some .chain))
    else if s.tu.locks ≠ [] then (s, .no .locked (some .turntable))
    else if !s.carriagePasses then (s, .no .occupied (some .turntable))
    else (beginHoming b s, .ok (.turnState .homing))

/-- TURN STOP (R134). -/
def cmdTurnStop (s : State) : State × Reply :=
  match s.tu.state with
  | .moving =>
    (((s.setTurn fun t => { t with state := .stopping }).report .turnStopping).hand .bridgeChange,
      .ok (.turnState .stopping))
  | .homing => (losePosition .unhomed (.turnUnhomed false) s, .ok (.turnState .unhomed))
  | st => (s, .ok (.turnState st))

end Sys2Proof.Machine
end

