-- ==== Sys2Proof/Machine/Routes.lean ====
section
/-! DEFINITION. Routes and locking (chapter 4): the settable test, requests, setting, release, cancelling. -/

namespace Sys2Proof.Machine

open Sys2Proof

/-! ## Route fields read together -/

/-- The path and overlap sections of a route. -/
def RouteCfg.sections (c : RouteCfg) : List Nat := c.path ++ c.overlap

/-- The point requirements, then the flank requirements. -/
def RouteCfg.requirements (c : RouteCfg) : List (Nat × PointPos) := c.points ++ c.flanks

/-- The final path section. -/
def RouteCfg.final (c : RouteCfg) : Option Nat := c.path.getLast?

/-- The location of a route's entry signal. -/
def State.entryLocation (s : State) (c : RouteCfg) : Option (Nat × EndName) :=
  (c.entry.bind s.signal?).bind fun g => g.cfg.location

/-- The routes with `p`, ascending. -/
def State.routesWith (s : State) (p : RouteRec → Bool) : List Nat :=
  (s.ix.routes.filter fun e => p e.2).map fun e => e.1

/-- The list of train `n`; empty for a train that is not DEFINED. -/
def State.listOf (s : State) (n : Nat) : List ListEntry :=
  match s.train? n with
  | some t => t.list
  | none => []

/-- Section `x` is in the list of train `n`. -/
def State.inList (s : State) (n x : Nat) : Bool := (s.listOf n).any fun e => e.sec == x

/-- The route lock of section `x`. -/
def State.lockOf (s : State) (x : Nat) : Option Nat := (s.section? x).bind fun r => r.lock

/-- The sections whose route lock names `r` (R53). -/
def State.lockedSections (s : State) (r : Nat) : List Nat :=
  (s.sections.filter fun x => x.2.lock == some r).map fun x => x.1

/-- The points in whose lock set `r` stands (R53). -/
def State.lockedPoints (s : State) (r : Nat) : List Nat :=
  (s.pu.points.filter fun p => p.2.locks.contains r).map fun p => p.1

/-! ## The settable test (R57, R58) -/

/-- Every route in the lock set of point record `q` requires `pos` of point `p`. -/
def State.membersRequire (s : State) (p : Nat) (pos : PointPos) (locks : List Nat) : Bool :=
  locks.all fun r =>
    match s.route? r with
    | some q => q.cfg.requires p == some pos
    | none => true

/-- The refusal of a point requirement, or none when it meets the test (R58). -/
def State.pointRefusal (s : State) (p : Nat) (pos : PointPos) : Option RefusalWords :=
  match s.point? p with
  | none => some (.unknown, some (.point p))
  | some q =>
    let same := s.membersRequire p pos q.locks
    if same ∧ q.locks.length < Config.lockSetMax ∧ (s.stands p pos ∨ q.locks ≠ []) then none
    else if q.locks = [] ∧ s.pointOccupied p = false ∧ q.failed = false then none
    else if !same then some (.locked, some (.point p))
    else if Config.lockSetMax ≤ q.locks.length then some (.limit, some (.point p))
    else if s.pointOccupied p then some (.occupied, some (.point p))
    else some (.failed, some (.point p))

/-- A throw is needed: the point is free to move and does not stand in `pos` (R58). -/
def State.throwNeeded (s : State) (p : Nat) (pos : PointPos) : Bool :=
  match s.point? p with
  | none => false
  | some q => q.locks.isEmpty && !s.pointOccupied p && !q.failed && !s.stands p pos

/-- The bridge is ALIGNED with end `e` facing road `k`. -/
def State.alignedAs (s : State) (k : Nat) (e : BridgeEnd) : Bool := s.bridgeProven { bridge := some (k, e) }

/-- The refusal of route `r`'s bridge requirement, or none when it meets the test (R58). -/
def State.bridgeRefusal (s : State) (r k : Nat) (e : BridgeEnd) : Option RefusalWords :=
  let other := s.bridgeLockedAgainst k e
  if !other ∧ s.tu.locks.length < Config.lockSetMax ∧ (s.alignedAs k e ∨ s.tu.locks ≠ []) then none
  else if other then some (.locked, some .turntable)
  else if Config.lockSetMax ≤ s.tu.locks.length then some (.limit, some .turntable)
  else (moveRefusal s k e (.route r)).map fun w => (w.1, some .turntable)

/-- Section `x` may be OCCUPIED when a route of configuration `c` is tested (R57, condition 4). -/
def State.mayBeOccupied (s : State) (c : RouteCfg) (x : Nat) : Bool :=
  (c.type == .shunt && c.final == some x)
    || (c.bridge.isSome && s.bridgeSection == some x && s.carriagePasses)

/-- The refusal of one section: its lock before its occupancy (R57, condition 4). -/
def State.sectionRefusal (s : State) (c : RouteCfg) (x : Nat) : Option RefusalWords :=
  if (s.lockOf x).isSome then some (.locked, some (.sec x))
  else if s.occupied x && !s.mayBeOccupied c x then some (.occupied, some (.sec x))
  else none

/-- The entry signal leads a route other than `r` that is not IDLE (R57, condition 7). -/
def State.entryConflict (s : State) (r : Nat) (c : RouteCfg) : Option RefusalWords :=
  match c.entry with
  | none => none
  | some g =>
    if s.ix.routes.any fun e => e.1 != r && e.2.cfg.entry == some g && e.2.state != .idle
    then some (.conflict, some (.signal g)) else none

/-- The points whose throw would add an entry to the throw queue (R58); a flank point named twice is one. -/
def State.throwPoints (s : State) (c : RouteCfg) : List Nat :=
  ((c.requirements.filter fun q => s.throwNeeded q.1 q.2 && throwAdds s q.1 q.2).map fun q => q.1).eraseDups

/-- The entries of the throw queue that the route would add (R58). -/
def State.throwRoom (s : State) (c : RouteCfg) : Nat := (s.throwPoints c).length

/-- The refusal of the settable test, or none when route `r` is settable (R57). -/
def State.settable (s : State) (r : Nat) (q : RouteRec) : Option RefusalWords :=
  if q.state ≠ .idle then some (.state, some (.route r))
  else if s.stopped then some (.stopped, none)
  else if !s.healthy then some (.state, some .chain)
  else
    (q.cfg.sections.findSome? (s.sectionRefusal q.cfg)).or <|
    (q.cfg.requirements.findSome? fun p => s.pointRefusal p.1 p.2).or <|
    (q.cfg.bridge.bind fun b => s.bridgeRefusal r b.1 b.2).or <|
    (s.entryConflict r q.cfg).or <|
    if Config.throwQueueMax < s.pu.queue.length + s.throwRoom q.cfg then some (.full, none) else none

/-! ## Locks (R55, R56) -/

/-- Route `r` leaves the lock set of point `p`. -/
def leavePoint (r p : Nat) (s : State) : State := s.setPoint p fun q => { q with locks := setErase r q.locks }

/-- Route `r` leaves the bridge lock set. -/
def leaveBridge (r : Nat) (s : State) : State := s.setTurn fun t => { t with locks := setErase r t.locks }

/-- Section `x` is released by route `r`: its lock goes, and with it the lock of the point or of the bridge
the section is (R71, R72, R73). -/
def releaseSection (r : Nat) (c : RouteCfg) (x : Nat) (s : State) : State :=
  match s.section? x with
  | none => s
  | some q =>
    if q.lock ≠ some r then s
    else
      let s1 := s.setSection x fun q => { q with lock := none }
      match q.cfg.kind with
      | .plain => s1
      | .bridge => leaveBridge r s1
      | .point =>
        match q.cfg.point with
        | some p => if c.points.any (fun a => a.1 == p) || c.final == some x then leavePoint r p s1 else s1
        | none => s1

/-- Route `r` gives up the lock set of every point and of the bridge. -/
def leaveAll (r : Nat) (s : State) : State :=
  leaveBridge r (foldState (leavePoint r) (s.lockedPoints r) s)

/-! ## Changes of state (R54) -/

/-- The state of route `r` changes, with its report, and is handed on (R54). -/
def changeRoute (r : Nat) (st : RouteState) (rep : Report) (f : RouteRec → RouteRec) (s : State) : State :=
  ((s.setRoute r fun q => f { q with state := st }).report rep).hand (.routeChange r st)

/-- The head of a run list (R104). -/
def TrainRec.head (t : TrainRec) : Option Nat := t.cfg.runList.head?

/-- The request mark of train `n` (R105). -/
def setMark (n : Nat) (m : RequestMark) (s : State) : State := s.setTrain n fun t => { t with mark := m }

/-- The trains whose head is route `r` and whose mark is `m`. -/
def State.marked (s : State) (r : Nat) (m : RequestMark) : List Nat :=
  s.trainsWith fun t => t.head == some r && t.mark == m

/-- A route whose start made marks STARTED becomes IDLE: they become NONE (R105). -/
def clearStarted (r : Nat) (s : State) : State := foldState (fun n s => setMark n .none s) (s.marked r .started) s

/-- Route `r` becomes IDLE: the live fields take their initial values (R53, R75), and the marks its start made
become NONE (R105). The re-examination follows the change handed on (R75). -/
def idleRoute (r : Nat) (s : State) : State :=
  (changeRoute r .idle (.routeState r .idle) (fun q => { cfg := q.cfg }) (clearStarted r s)).askReexamine

/-- The queued throw of point `p` is withdrawn when its lock set has become empty (R67). -/
def withdrawIfFree (p : Nat) (s : State) : State :=
  match s.point? p with
  | some q => if q.locks = [] then withdrawThrow p s else s
  | none => s

/-- A full release of route `r` (R67). The pass that its releases start is the one made once the route is IDLE. Its
withdrawals go by ascending point (the model's choice, log 56). -/
def fullRelease (r : Nat) (s : State) : State :=
  let points := s.lockedPoints r
  let s1 := foldState (fun x s => s.setSection x fun q => { q with lock := none }) (s.lockedSections r) s
  let s2 := foldState withdrawIfFree points (leaveAll r s1)
  s2.setRoute r fun q => { cfg := q.cfg, state := q.state }

/-- A full release, after which the route is IDLE (R66, R68, R69). -/
def releaseToIdle (r : Nat) (s : State) : State := idleRoute r (fullRelease r s)

/-- Route `r`, in SETTING, fails (R66). -/
def failRoute (r : Nat) (cause : FailCause) (s : State) : State :=
  match s.route? r with
  | none => s
  | some q =>
    if q.state = .setting then releaseToIdle r ((s.report (.routeFailed r cause)).hand (.routeFail r)) else s

/-! ## Setting (R64, R65) -/

/-- The proof of R65 is tested. -/
def testProof (r : Nat) (s : State) : State :=
  match s.route? r with
  | none => s
  | some q =>
    if q.state = .setting ∧ s.pointsProven q.cfg ∧ s.bridgeProven q.cfg then
      changeRoute r .set (.routeState r .set) (fun q => { q with settingTimer := none }) s
    else s

/-- The bridge move a route asks for at step 6 of R64. A refusal reaches the route as a move that ended
(R66). -/
def askMove (r k : Nat) (e : BridgeEnd) (s : State) : State :=
  match requestMove k e none (.route r) s with
  | .ok (s1, some _) => s1.setRoute r fun q => { q with asked := true }
  | .ok (s1, none) => s1
  | .error _ => s.hand (.moveEnded (.route r) .elsewhere)

/-- Route `r` of configuration `c` enters SETTING: the eight steps of R64. -/
def enterSetting (r : Nat) (c : RouteCfg) (s : State) : State :=
  let throws := c.requirements.filter fun q => s.throwNeeded q.1 q.2
  let move := c.bridge.filter fun b => s.tu.locks.isEmpty && !s.alignedAs b.1 b.2
  let s1 := changeRoute r .setting (.routeState r .setting) id s
  let s2 := foldState (fun x s => s.setSection x fun q => { q with lock := some r }) c.sections s1
  let s3 := foldState (fun q s => s.setPoint q.1 fun p => { p with locks := setInsert r p.locks })
    c.requirements s2
  let s4 := if c.bridge.isSome then s3.setTurn fun t => { t with locks := setInsert r t.locks } else s3
  let s5 := foldState (fun q s => throwPoint q.1 q.2 s) throws s4
  let s6 := match move with
    | some (k, e) => askMove r k e s5
    | none => s5
  let s7 := s6.setRoute r fun q => { q with settingTimer := some (s6.now + seconds 60) }
  testProof r s7

/-! ## The request queue (R60 to R63) -/

/-- Takes the entry of route `r` out of the queue. -/
def State.unrequest (s : State) (r : Nat) : State :=
  { s with ix := { s.ix with requests := s.ix.requests.filter fun q => q.route != r } }

/-- The entry of route `r`, if it has one. -/
def State.request? (s : State) (r : Nat) : Option Request := s.ix.requests.find? fun q => q.route == r

/-- The entry of route `r` leaves the queue because its route starts: the origin is told (R59, R61). -/
def startRequest (r : Nat) (s : State) : State :=
  match s.request? r with
  | none => s
  | some q => (s.unrequest r).hand (.requestStarted q.origin r)

/-- The entry of route `r` leaves the queue unstarted: reported, and the origin told (R54, R61). -/
def dropRequest (r : Nat) (cause : RequestDrop) (s : State) : State :=
  match s.request? r with
  | none => s
  | some q => ((s.unrequest r).report (.routeDropped r cause)).hand (.requestDropped q.origin r cause)

/-- One entry visited in a re-examination (R62). -/
def visitRequest (q : Request) (s : State) : State :=
  match s.route? q.route with
  | none => s
  | some rec =>
    if (s.settable q.route rec).isNone then enterSetting q.route rec.cfg (startRequest q.route s) else s

/-- A re-examination: one pass from the oldest entry to the newest (R62). -/
def reexamine (s : State) : State := foldState visitRequest s.ix.requests s

/-- The outcome of a store (R60). -/
inductive StoreOutcome where
  | refused (c : Code) (o : Option Obj)
  | queued
  | started
deriving DecidableEq, Repr

/-- A store of route `r` by `origin` (R60, R61). -/
def storeRequest (r : Nat) (origin : Origin) (expiry : Option Nat) (s : State) : State × StoreOutcome :=
  if Config.maxRoutes ≤ r then (s, .refused .range none)
  else
    match s.route? r with
    | none => (s, .refused .unknown none)
    | some q =>
      if s.mode = .config then (s, .refused .mode none)
      else if q.state ≠ .idle then (s, .refused .state (some (.route r)))
      else if (s.request? r).isSome then (s, .queued)
      else if (s.settable r q).isNone then (enterSetting r q.cfg s, .started)
      else if Config.requestMax ≤ s.ix.requests.length then (s, .refused .full none)
      else
        let s1 := { s with ix := { s.ix with
          requests := s.ix.requests ++ [Request.mk r origin expiry] } }
        (s1.report (.routeQueued r origin), .queued)

/-- A block withdraws the entries of its own origin (R61). Several go oldest first (the model's choice, log 56). -/
def withdrawRequests (origin : Origin) (s : State) : State :=
  let mine := s.ix.requests.filter fun q => q.origin == origin
  foldState (fun q s => dropRequest q.route .withdrawn s) mine s

/-! ## Occupation and release (R70 to R75) -/

/-- An OCCUPIED route that holds no section and stands in no lock set becomes IDLE (R75). -/
def idleIfFree (r : Nat) (s : State) : State :=
  match s.route? r with
  | none => s
  | some q =>
    if q.state = .occupied ∧ s.lockedSections r = [] ∧ s.lockedPoints r = [] ∧ s.tu.locks.contains r = false
    then idleRoute r s else s

/-- A release of section `x` by route `r` while the route goes on, with the pass it starts (R62, R71, R73, R74). -/
def freeSection (r : Nat) (c : RouteCfg) (x : Nat) (s : State) : State :=
  if s.lockOf x = some r then reexamine (releaseSection r c x s) else s

/-- Route `r` stands in the lock set of a point or of the bridge. -/
def State.inLockSets (s : State) (r : Nat) : Bool := s.lockedPoints r != [] || s.tu.locks.contains r

/-- The route gives up its locks: the lock sets and the CLEAR sections at once, the OCCUPIED sections as they clear
(R74). The sections go in ascending order (the model's choice, log 56). -/
def giveUp (r : Nat) (c : RouteCfg) (s : State) : State :=
  let s1 := s.setRoute r fun q => { q with leaving := true, overlapTimer := none, dwellTimer := none }
  let clear := (s1.lockedSections r).filter fun x => !s1.occupied x
  let s2 := leaveAll r s1
  foldState (freeSection r c) clear (if s1.inLockSets r then reexamine s2 else s2)

/-- Path sections that R71 releases: passed, no longer in the list, the next path section in the list. -/
def sectionalReleases (inList : Nat → Bool) (passed : List Nat) : List Nat → List Nat
  | a :: b :: rest =>
    (if passed.contains a && !inList a && inList b then [a] else []) ++ sectionalReleases inList passed (b :: rest)
  | _ => []

/-- R71: sectional release. Several sections go in path order (the model's choice, log 56). -/
def releaseBehind (r n : Nat) (q : RouteRec) (s : State) : State :=
  foldState (freeSection r q.cfg) (sectionalReleases (s.inList n) q.passed q.cfg.path) s

/-- R72: release of the final path section, and of every flank point with it. A section that left the list with a loss
is released when the train is re-found in another section of the route (the model's choice, log 69). -/
def releaseFinal (r n : Nat) (q : RouteRec) (s : State) : State :=
  match q.cfg.final with
  | none => s
  | some x =>
    if q.passed.contains x && !s.inList n x && s.lockOf x == some r then
      reexamine (foldState (fun f s => leavePoint r f.1 s) q.cfg.flanks (releaseSection r q.cfg x s))
    else s

/-- R73: release of the overlap sections that are not in the list, once the overlap is released. Several sections go
as listed (the model's choice, log 56). -/
def releaseOverlap (r n : Nat) (q : RouteRec) (s : State) : State :=
  if q.overlapReleased then
    foldState (freeSection r q.cfg) (q.cfg.overlap.filter fun x => !s.inList n x) s
  else s

/-- What the removal of `x` from the list releases of itself when no section of the route is left in the list:
the final path section (R72), or an overlap section once the overlap is released (R73). -/
def releaseRemoved (r n : Nat) (q : RouteRec) (x : Nat) (s : State) : State :=
  if q.cfg.final = some x then releaseFinal r n q s
  else if q.overlapReleased ∧ q.cfg.overlap.contains x then freeSection r q.cfg x s
  else s

/-- Train `n` is ACTIVE. -/
def State.active (s : State) (n : Nat) : Bool :=
  match s.train? n with
  | some t => t.state == .active
  | none => false

/-- The releases of an OCCUPIED route, judged on the occupying train's list as it stands after the removal of
`removed`, if a removal it was. While a section of the route is in the list R71 to R73 apply; with none in it,
R74 (R75). -/
def judgeReleases (removed : Option Nat) (r : Nat) (s : State) : State :=
  match s.route? r with
  | none => s
  | some q =>
    match q.state, q.train with
    | .occupied, some n =>
      if s.active n then
        idleIfFree r <|
          if q.cfg.sections.any (s.inList n) then
            releaseOverlap r n q (releaseFinal r n q (releaseBehind r n q s))
          else giveUp r q.cfg (match removed with
            | some x => releaseRemoved r n q x s
            | none => s)
      else s
    | _, _ => s

/-- The lead of train `n` stands in the final path section. -/
def State.leadInFinal (s : State) (n : Nat) (c : RouteCfg) : Bool :=
  match (s.listOf n).getLast? with
  | some e => c.final == some e.sec
  | none => false

/-- The current step of train `n`. -/
def State.currentOf (s : State) (n : Nat) : Nat :=
  match s.train? n with
  | some t => t.current
  | none => 0

/-- The dwell timer of an OCCUPIED route starts, runs on or stops (R73). A route that has given up its locks
starts it no more, wherever its train goes (log 40). -/
def judgeDwell (r : Nat) (s : State) : State :=
  match s.route? r with
  | none => s
  | some q =>
    match q.state, q.train with
    | .occupied, some n =>
      if q.overlapReleased = false ∧ q.leaving = false ∧ s.leadInFinal n q.cfg ∧ s.currentOf n = 0 then
        if q.dwellTimer.isSome then s else s.setRoute r fun q => { q with dwellTimer := some (s.now + ms 2000) }
      else s.setRoute r fun q => { q with dwellTimer := none }
    | _, _ => s

/-- The overlap of route `r` is released (R73). -/
def overlapRelease (r : Nat) (s : State) : State :=
  judgeReleases none r (s.setRoute r fun q =>
    { q with overlapReleased := true, overlapTimer := none, dwellTimer := none })

/-- The overlap timer starts when the final path section is appended as the lead, once (R73), and not in a route
that has given up its locks (log 40). -/
def startOverlap (r x : Nat) (s : State) : State :=
  match s.route? r with
  | none => s
  | some q =>
    if q.cfg.final = some x ∧ q.overlapStarted = false ∧ q.overlapReleased = false ∧ q.leaving = false then
      let s1 := s.setRoute r fun q => { q with overlapStarted := true }
      if q.cfg.overlapRelease = 0 then overlapRelease r s1
      else s1.setRoute r fun q => { q with overlapTimer := some (s1.now + seconds q.cfg.overlapRelease) }
    else s

/-- Route `r` becomes OCCUPIED by train `n` (R70). -/
def occupyRoute (n r : Nat) (s : State) : State :=
  changeRoute r .occupied (.routeOccupied r n)
    (fun q => { q with train := some n, settingTimer := none, approachTimer := none }) s

/-- An append `x` to the list of train `n`, with the lead before it, makes route record `q` OCCUPIED (R70). -/
def State.occupies (s : State) (x : Nat) (prev : Option ListEntry) (q : RouteRec) : Bool :=
  q.cfg.path.head? == some x
    && (q.state == .set || q.state == .cancelPending || q.state == .setting)
    && (match prev with
      | some e => s.entryLocation q.cfg == some (e.sec, e.exit)
      | none => false)

/-- The routes OCCUPIED by train `n`. -/
def State.routesOf (s : State) (n : Nat) : List Nat :=
  s.routesWith fun q => q.state == .occupied && q.train == some n

/-- What an append does to one route OCCUPIED by the train. -/
def appendToRoute (x r : Nat) (s : State) : State :=
  let s1 := s.setRoute r fun q =>
    if q.cfg.sections.contains x then { q with passed := setInsert x q.passed } else q
  judgeReleases none r (judgeDwell r (startOverlap r x s1))

/-- The tracker hands an append (R70 to R75). -/
def ixAppend (n x : Nat) (prev : Option ListEntry) (s : State) : State :=
  let s1 := foldState (occupyRoute n) (s.routesWith (s.occupies x prev)) s
  foldState (appendToRoute x) (s1.routesOf n) s1

/-- The tracker hands the removal of an entry, its section given, or a reversal: the releases are judged on the list
as it stands (R71 to R74). Several routes are judged in ascending order (the model's choice, log 56). -/
def ixListChange (n : Nat) (removed : Option Nat) (s : State) : State :=
  foldState (fun r s => judgeReleases removed r (judgeDwell r s)) (s.routesOf n) s

/-- The tracker hands a loss: nothing is released, and the dwell timer stops with the lead (R73, R75). -/
def ixLoss (n : Nat) (s : State) : State := foldState judgeDwell (s.routesOf n) s

/-- A train has become UNPLACED or UNUSED: its OCCUPIED routes give up their locks (R75). Several go in ascending
order (the model's choice, log 56). -/
def ixTrainGone (n : Nat) (s : State) : State :=
  foldState (fun r s =>
    match s.route? r with
    | some q => idleIfFree r (giveUp r q.cfg (s.setRoute r fun q => { q with train := none }))
    | none => s) (s.routesOf n) s

/-- The train that occupies route record `q` is LOST. -/
def State.trainLost (s : State) (q : RouteRec) : Bool :=
  match q.train.bind s.train? with
  | some t => t.state == .lost
  | none => false

/-- The interlocking takes a section that has become CLEAR: a route that has given up its locks frees it
(R74), unless its train is LOST (R75), and the queue is re-examined (R62). -/
def ixClear (x : Nat) (s : State) : State :=
  let s1 := match s.lockOf x with
    | none => s
    | some r =>
      match s.route? r with
      | some q => if q.leaving && !s.trainLost q then idleIfFree r (freeSection r q.cfg x s) else s
      | none => s
  s1.askReexamine

/-! ## What the other units hand the interlocking -/

/-- A point of the lock sets changes position, is dropped or becomes FAILED (R65, R66, R62). A withdrawal concerns no
route (R67). Several routes are taken in ascending order (the model's choice, log 56). -/
def ixPoint (p : Nat) (e : PointEvent) (s : State) : State :=
  match s.point? p with
  | none => s
  | some q =>
    match e with
    | .dropped | .failed => foldState (fun r s => failRoute r (.point p) s) q.locks s
    | .withdrawn => s
    | .moved => foldState testProof q.locks s
    | .placed => (foldState testProof q.locks s).askReexamine

/-- The bridge changes state (R65, R66, R62). FAULT fails every route in SETTING. Several routes are taken in
ascending order (the model's choice, log 56). -/
def ixBridge (s : State) : State :=
  match s.tu.state with
  | .fault => foldState (fun r s => failRoute r .bridge s) (s.routesWith fun q => q.state == .setting) s
  | .aligned => (foldState testProof s.tu.locks s).askReexamine
  | _ => s

/-- A bridge move that route `r` asked for has ended, or was refused (R66). A move that the route has asked since
is another. -/
def ixMoveEnded (r : Nat) (s : State) : State :=
  match s.route? r with
  | none => s
  | some q => if q.asked || s.bridgeProven q.cfg then s else failRoute r .bridge s

/-- Emergency stop becomes active: every route in SETTING fails (R76). They go in ascending order (the model's choice,
log 56). -/
def routesStop (s : State) : State :=
  foldState (fun r s => failRoute r .stop s) (s.routesWith fun q => q.state == .setting) s

/-- Entry to CONFIG removes every entry of the request queue (R14, R60). They go oldest first (the model's choice, log
56). -/
def dropAllRequests (s : State) : State :=
  foldState (fun q s => dropRequest q.route .mode s) s.ix.requests s

/-! ## Timers (R63, R66, R69, R73) -/

/-- The setting timer of route `r` expires (R66). -/
def settingExpiry (r : Nat) (s : State) : State :=
  match s.route? r with
  | some q => if q.settingTimer.isSome then failRoute r .timeout (s.expire q.settingTimer) else s
  | none => s

/-- The approach release timer of route `r` expires (R69). -/
def approachExpiry (r : Nat) (s : State) : State :=
  match s.route? r with
  | some q =>
    if q.state = .cancelPending ∧ q.approachTimer.isSome then releaseToIdle r (s.expire q.approachTimer) else s
  | none => s

/-- The entry of route `r` reaches its expiry (R63). -/
def requestExpiry (r : Nat) (s : State) : State :=
  match s.request? r with
  | some q => if q.expiry.isSome then dropRequest r .expiry (s.expire q.expiry) else s
  | none => s

/-- The overlap timer of route `r` expires (R73). -/
def overlapExpiry (r : Nat) (s : State) : State :=
  match s.route? r with
  | some q => if q.overlapTimer.isSome then overlapRelease r (s.expire q.overlapTimer) else s
  | none => s

/-- The dwell timer of route `r` expires (R73). -/
def dwellExpiry (r : Nat) (s : State) : State :=
  match s.route? r with
  | some q => if q.dwellTimer.isSome then overlapRelease r (s.expire q.dwellTimer) else s
  | none => s

/-! ## ROUTE SET, ROUTE STORE, ROUTE CAN (R59, R60, R68) -/

/-- OK ROUTE r and the state as it stands. -/
def routeReply (r : Nat) (s : State) : Reply :=
  match s.route? r with
  | some q => .ok (.route r q.state)
  | none => .no .unknown none

/-- ROUTE SET r (R59). -/
def cmdRouteSet (r : Nat) (s : State) : State × Reply :=
  if Config.maxRoutes ≤ r then (s, .no .range none)
  else
    match s.route? r with
    | none => (s, .no .unknown none)
    | some q =>
      if s.mode = .config then (s, .no .mode none)
      else
        match s.settable r q with
        | some w => (s, .no w.1 w.2)
        | none =>
          let s1 := enterSetting r q.cfg (startRequest r s)
          (s1, routeReply r s1)

/-- ROUTE STORE r (R60). -/
def cmdRouteStore (r : Nat) (s : State) : State × Reply :=
  match storeRequest r .link none s with
  | (s1, .refused c o) => (s1, .no c o)
  | (s1, .queued) => (s1, .ok (.routeQueued r))
  | (s1, .started) => (s1, routeReply r s1)

/-- A cancel of route `r` held in SET makes it CANCEL-PENDING (R68). -/
def State.approachHeld (s : State) (c : RouteCfg) : Bool :=
  decide (0 < c.approachRelease) && c.approach.any s.occupied

/-- ROUTE CAN r (R68). -/
def cmdRouteCan (r : Nat) (s : State) : State × Reply :=
  if Config.maxRoutes ≤ r then (s, .no .range none)
  else
    match s.route? r with
    | none => (s, .no .unknown none)
    | some q =>
      if s.mode = .config then (s, .no .mode none)
      else
        match q.state with
        | .idle => (dropRequest r .can s, .ok (.route r .idle))
        | .setting => (releaseToIdle r s, .ok (.route r .idle))
        | .set =>
          if s.approachHeld q.cfg then
            (changeRoute r .cancelPending (.routeState r .cancelPending)
              (fun q => { q with approachTimer := some (s.now + seconds q.cfg.approachRelease) }) s,
              .ok (.route r .cancelPending))
          else (releaseToIdle r s, .ok (.route r .idle))
        | .cancelPending => (s, .ok (.route r .cancelPending))
        | .occupied => (s, .no .state (some (.route r)))

end Sys2Proof.Machine
end

