-- ==== Sys2Proof/Machine/Trains.lean ====
section
/-! DEFINITION. Train tracking and run lists (chapter 6). -/

namespace Sys2Proof.Machine

open Sys2Proof

/-! ## Hold sets (R91) -/

/-- The hold set of a train, in the order PASSED-STOP, DRIVE-CONFLICT, ON-TURN, REVERSING, SHOW-WAIT. -/
def TrainRec.holds (t : TrainRec) : List Bool :=
  [t.passedStop, t.driveConflict, t.onTurn, t.reversing, t.showWait]

/-- Changes train `n`; a change of its hold set is handed on (R91). -/
def changeHolds (n : Nat) (f : TrainRec → TrainRec) (s : State) : State :=
  match s.train? n with
  | none => s
  | some t =>
    let s1 := s.setTrain n f
    if (f t).holds = t.holds then s1 else s1.hand (.holdsChange n)

/-- Section `x` is no train's ambiguity section any more (R96). Several trains go in ascending order (the model's
choice, log 56). -/
def endAmbiguity (x : Nat) (s : State) : State :=
  foldState (fun n s => changeHolds n (fun t => { t with ambiguity := none }) s)
    (s.trainsWith fun t => t.ambiguity == some x) s

/-! ## Run lists (R104, R105) -/

/-- A train eligible to store (R105). -/
def TrainRec.eligible (t : TrainRec) : Bool :=
  t.state == .active && t.driver == .link && !t.held && !t.cfg.runList.isEmpty

/-- The lead section is an approach section of route `c`, or the section of its entry signal (R105). -/
def State.leadAtRoute (s : State) (t : TrainRec) (c : RouteCfg) : Bool :=
  match t.lead with
  | none => false
  | some e => c.approach.contains e.sec || (s.entryLocation c).any fun l => l.1 == e.sec

/-- A placement opportunity of train `n` (R105). -/
def placement (n : Nat) (s : State) : State :=
  match s.train? n with
  | none => s
  | some t =>
    match t.head with
    | none => s
    | some h =>
      match s.route? h with
      | none => s
      | some q =>
        if t.eligible ∧ (t.mark = .none ∨ t.mark = .deferred) ∧ s.leadAtRoute t q.cfg then
          match storeRequest h (.train n) none s with
          | (s1, .queued) => setMark n .queued s1
          | (s1, .started) => setMark n .started s1
          | (s1, .refused .full _) => setMark n .none s1
          | (s1, .refused .state _) => setMark n .deferred s1
          | (s1, .refused _ _) => s1
        else s

/-- The tracker is told that the entry of route `r` has started: QUEUED becomes STARTED (R105). Several trains are
taken in ascending order (the model's choice, log 56). -/
def ttRequestStarted (r : Nat) (s : State) : State := foldState (fun n s => setMark n .started s) (s.marked r .queued) s

/-- The tracker is told that the entry of route `r` was dropped or withdrawn: QUEUED becomes NONE (R105). Several
trains are taken in ascending order (the model's choice, log 56). -/
def ttRequestDropped (r : Nat) (s : State) : State := foldState (fun n s => setMark n .none s) (s.marked r .queued) s

/-- The run list after its head has been entered (R105). -/
def TrainRec.advance (t : TrainRec) : TrainRec :=
  match t.cfg.runList with
  | [] => t
  | h :: rest =>
    { t with mark := .none, cfg := { t.cfg with
        runList := if t.cfg.runMode = .loop then rest ++ [h] else rest } }

/-- The tracker takes a change of route `r` (R105); the marks a route's start made are cleared as it becomes IDLE
(`idleRoute`). Several trains go in ascending order (the model's choice, log 56). -/
def ttRouteChange (r : Nat) (st : RouteState) (s : State) : State :=
  match st with
  | .idle =>
    s.handAll ((s.marked r .deferred).map Notice.placement)
  | .occupied =>
    match (s.route? r).bind fun q => q.train with
    | none => s
    | some n =>
      let mine := (s.train? n).any fun t => t.head == some r
      let s1 := foldState (fun m s => if m = n then s else setMark m .none s) (s.marked r .started) s
      if mine then (s1.setTrain n TrainRec.advance).hand (.placement n) else s1
  | _ => s

/-! ## Passing a signal (R98) -/

/-- Train `n` passes signal `g` at aspect `a` (R98). A pass at STOP leaves the remembered cap as it is (the model's
choice, log 74). -/
def passSignal (n g : Nat) (a : Aspect) (s : State) : State :=
  match a with
  | .stop =>
    ((changeHolds n (fun t => { t with passedStop := true }) s).report (.trainPassedStop n g)).hand (.passedStop n)
  | a => s.setTrain n fun t => { t with cap := s.capOf a }

/-- The pass of the signal at `(x, e)`, if one stands there, judged by `aspect` (R95, R97). -/
def judgePass (n x : Nat) (e : EndName) (aspect : Nat → Aspect) (s : State) : State :=
  match s.signalAt x e with
  | none => s
  | some g => passSignal n g (aspect g) s

/-! ## Trailing removal and the lost timer (R99, R100) -/

/-- The lost timer of train `n` starts when its list is one CLEAR section, the chain HEALTHY and the timer
stopped (R100). -/
def judgeLost (n : Nat) (s : State) : State :=
  match s.train? n with
  | none => s
  | some t =>
    match t.list with
    | [e] =>
      if t.state = .active ∧ s.occupied e.sec = false ∧ s.healthy ∧ t.lostTimer = none then
        s.setTrain n fun t => { t with lostTimer := some (s.now + ms s.tt.lostTime) }
      else s
    | _ => s

/-- The trailing entry of train `n` is removed, and the removal handed on (R92). -/
def removeTrailing (n : Nat) (s : State) : State :=
  let removed := (s.listOf n).head?.map fun e => e.sec
  (ixListChange n removed (s.setTrain n fun t => { t with list := t.list.drop 1 })).hand (.listChange n)

/-- Removes trailing entries while they are CLEAR and not the lead (R99). The first argument bounds the
entries. -/
def trimList : Nat → Nat → State → State
  | 0, _, s => s
  | k + 1, n, s =>
    match s.listOf n with
    | e :: _ :: _ => if s.occupied e.sec then s else trimList k n (removeTrailing n s)
    | _ => s

/-- Trailing removal, after which the lost timer is judged (R99, R100). -/
def trailing (n : Nat) (s : State) : State :=
  judgeLost n (trimList Config.listMax n s)

/-! ## Advancing (R95, R96, R97) -/

/-- Train `n` claims `x`, entered through `f`, aspects at passing as `aspect` gives them (R95). -/
def claim (n x : Nat) (f : EndName) (aspect : Nat → Aspect) (s : State) : State :=
  match s.train? n with
  | none => s
  | some t =>
    match t.lead, t.list with
    | some lead, tail :: _ =>
      let s1 := if Config.listMax ≤ t.list.length then (removeTrailing n s).report (.trainLong n tail.sec) else s
      let g := (s1.far x f).getD f
      let s2 := s1.setTrain n fun t => { t with
        list := t.list ++ [{ sec := x, exit := g, entry := f }], lostTimer := none }
      let s3 := judgePass n lead.sec lead.exit aspect (endAmbiguity x s2)
      (((ixAppend n x (some lead) s3).report (.trainAt n x)).hand (.listChange n)).hand (.placement n)
    | _, _ => s

/-- The ACTIVE trains whose lead faces `x`, each with the end of `x` it reaches (R95). -/
def State.candidates (s : State) (x : Nat) : List (Nat × EndName) :=
  s.tt.trains.filterMap fun e =>
    if e.2.state = .active then
      match e.2.lead with
      | none => none
      | some l =>
        match s.across l.sec l.exit with
        | some (y, f) => if y = x then some (e.1, f) else none
        | none => none
    else none

/-- `x` is left a stray between several candidates (R96). -/
def markAmbiguous (x : Nat) (ns : List Nat) (s : State) : State :=
  (foldState (fun n s => changeHolds n (fun t => { t with ambiguity := some x }) s) ns s).report
    (.trainAmbiguous x ns)

/-- The first end of section `y` whose resolution answers `x`, with the end of `x` reached (R97). -/
def State.endToward (s : State) (y x : Nat) : Option (EndName × EndName) :=
  match s.section? y with
  | none => none
  | some r => r.cfg.kind.ends.findSome? fun e =>
      match s.across y e with
      | some (z, f) => if z = x then some (e, f) else none
      | none => none

/-- A LOST train with remembered entry `m` is beside `x` (R97). -/
def State.beside (s : State) (x : Nat) (t : TrainRec) : Bool :=
  t.state == .lost && (match t.remembered with
    | none => false
    | some m => m.sec == x || (s.endToward m.sec x).isSome)

/-- The re-found train's record, with its list (R97). -/
def TrainRec.found (t : TrainRec) (e : ListEntry) : TrainRec :=
  { t with state := .active, list := [e], remembered := none, cap := none }

/-- What follows a placing or a re-finding of train `n` in `x` (R93, R97, R131). The visitor unit takes the train's
becoming ACTIVE before the run list has its placement opportunity (the model's choice, log 73). -/
def settled (n x : Nat) (s : State) : State :=
  (((carryPlaced n x s).hand (.trainChange n .active)).hand (.listChange n)).hand (.placement n)

/-- Train `n`, LOST, re-finds itself in `x` (R97). -/
def refind (n x : Nat) (s : State) : State :=
  match (s.train? n).bind fun t => t.remembered with
  | none => s
  | some m =>
    if m.sec = x then
      let s1 := (endAmbiguity x (s.setTrain n fun t => t.found m)).report (.trainFound n x)
      settled n x (ixAppend n x none s1)
    else
      match s.endToward m.sec x with
      | none => s
      | some (e, f) =>
        let g := (s.far x f).getD f
        let s1 := (endAmbiguity x (s.setTrain n fun t => t.found { sec := x, exit := g, entry := f })).report
          (.trainFound n x)
        settled n x (ixAppend n x (some m) (judgePass n m.sec e s1.aspectNow s1))

/-- No ACTIVE train faces `x`: a LOST train beside it is re-found, or `x` is a stray (R97). -/
def findLost (x : Nat) (s : State) : State :=
  match s.trainsWith (s.beside x) with
  | [n] => refind n x s
  | _ => s.report (.trainStray x)

/-- The candidates whose current step is not 0 (R96). -/
def State.movingOf (s : State) (cs : List (Nat × EndName)) : List (Nat × EndName) :=
  cs.filter fun c => s.currentOf c.1 != 0

/-- The tracker decides who has taken `x` (R95, R96, R97). -/
def takeSection (x : Nat) (aspect : Nat → Aspect) (s : State) : State :=
  match s.candidates x with
  | [] => findLost x s
  | [(n, f)] => claim n x f aspect s
  | cs =>
    match s.movingOf cs with
    | [(n, f)] => claim n x f aspect s
    | _ => markAmbiguous x (cs.map fun c => c.1) s

/-- The tracker follows occupancy events: the chain is HEALTHY (R92, R95). Those of step 2 of a chain reset come before
the condition changes at step 3 and are followed (R26; log 15). -/
def State.tracking (s : State) : Bool := s.healthy

/-- The tracker takes an OCCUPIED event of `x` (R95). -/
def trackOccupied (x : Nat) (before : List (Nat × Aspect)) (s : State) : State :=
  if s.tracking then
    match s.holder x with
    | some n =>
      s.setTrain n fun t =>
        if t.lead.any fun e => e.sec == x then { t with lostTimer := none } else t
    | none => takeSection x (aspectIn before) s
  else s

/-- The tracker takes a CLEAR event of `x` (R96, R99). -/
def trackClear (x : Nat) (s : State) : State :=
  let s1 := endAmbiguity x s
  if s1.tracking then
    match s1.holder x with
    | some n => trailing n s1
    | none => s1
  else s1

/-! ## Leaving ACTIVE (R90, R94, R100) -/

/-- The replacement flag of a train that leaves ACTIVE is cleared (R115). -/
def dropReplacement (n : Nat) (s : State) : State :=
  { s with dg := { s.dg with replacement := setErase n s.dg.replacement } }

/-- The lost timer of train `n` expires (R100). -/
def lostExpiry (n : Nat) (s : State) : State :=
  match s.train? n with
  | none => s
  | some t =>
    if t.state = .active ∧ t.lostTimer.isSome then
      match t.lead with
      | none => s
      | some e =>
        let s0 := s.expire t.lostTimer
        let s1 := changeHolds n (fun t => { t with
          state := .lost, remembered := some e, list := [], lostTimer := none, current := 0, demand := 0
          cap := none, reversing := false, ambiguity := none, channelConflict := false, mark := .none
          trailDue := false }) s0
        let s2 := withdrawRequests (.train n) (dropReplacement n (ixLoss n s1))
        (dropCarried n ((s2.report (.trainLost n e.sec)).hand (.trainChange n .lost))).hand (.listChange n)
    else s

/-- The live fields of a train that becomes UNPLACED or UNUSED (R89); what the boards read of it stays (the
model's choice, log 25). -/
def TrainRec.initial (t : TrainRec) (st : TrainState) : TrainRec :=
  { cfg := t.cfg, state := st, departure := t.departure, stepRead := t.stepRead }

/-- Train `n` becomes UNPLACED (R94, R14). A carried train is carried no longer, at entry to CONFIG too (the model's
choice, log 58). -/
def unplace (n : Nat) (e : TrainEvent) (s : State) : State :=
  let s1 := dropCarried n s
  let s2 := changeHolds n (fun t => t.initial .unplaced) s1
  let s3 := withdrawRequests (.train n) (dropReplacement n (ixTrainGone n s2))
  ((s3.report (.trainUnplaced n)).hand (.trainChange n e)).hand (.listChange n)

/-! ## Reversal (R103) -/

/-- An entry turned round. -/
def ListEntry.turned (e : ListEntry) : ListEntry := { sec := e.sec, exit := e.entry, entry := e.exit }

/-- The reversal of train `n` completes (R103). -/
def completeReversal (n : Nat) (s : State) : State :=
  let s1 := changeHolds n (fun t => { t with
    list := (t.list.map ListEntry.turned).reverse, cap := none, reversing := false }) s
  let s2 := ((ixListChange n none s1).report (.trainReversed n)).hand (.listChange n)
  let s3 := if s2.healthy then trailing n s2 else s2.setTrain n fun t => { t with trailDue := true }
  s3.hand (.placement n)

/-- The tracker takes a change of train `n`'s current step to or from 0 (R103, R117). -/
def ttStepChange (n : Nat) (s : State) : State :=
  match s.train? n with
  | none => s
  | some t => if t.reversing ∧ t.current = 0 then completeReversal n s else s

/-! ## The chain and the tracker (R92, R101) -/

/-- The chain has left HEALTHY: every running lost timer stops (R92). -/
def freezeTracking (s : State) : State :=
  { s with tt := { s.tt with trains := Table.mapVals s.tt.trains fun t => { t with lostTimer := none } } }

/-- Tracking resumes: the removals of a reversal made in between, then the lost timers, then the sweep over every
OCCUPIED section in no list, ascending (R101, R103). A signal passed in the sweep is judged by the aspects as they
stand at its start (log 41). The removals and the lost timers go by ascending train (the model's choice, log 56), and
the sections swept are those OCCUPIED and in no list when the sweep begins (the model's choice, log 61). -/
def resumption (s : State) : State :=
  let s1 := foldState (fun n s => trailing n (s.setTrain n fun t => { t with trailDue := false }))
    (s.trainsWith fun t => t.trailDue) s
  let s2 := foldState judgeLost (s1.trainsWith fun t => t.state == .active) s1
  let s3 := refreshSignals s2
  let strays := (s3.sections.filter fun x => x.2.occupied && (s3.holder x.1).isNone).map fun x => x.1
  s3.handAll (strays.map fun x => .trackOccupied x s3.aspects)

/-! ## The commands -/

/-- The refusals of a train command for range, UNUSED and CONFIG, in this order. -/
def trainRefusal (n : Nat) (s : State) : Option Code :=
  if Config.maxTrains ≤ n then some .range
  else
    match s.train? n with
    | none => some .unknown
    | some t => if t.state = .unused then some .unknown else if s.mode = .config then some .mode else none

/-- The entry end of a train placed in section `x` with exit end `e` (R93); none when a point stands in the
way. -/
def State.placeEntry (s : State) (x : Nat) (kind : SectionKind) (e : EndName) : Option EndName :=
  match kind, e with
  | .point, .normal | .point, .reverse => some .toe
  | _, e => s.far x e

/-- Section `x` is DEFINED and `e` is not an end of its kind (R93). -/
def State.badEnd (s : State) (x : Nat) (e : Option EndName) : Bool :=
  match s.section? x, e with
  | none, _ => false
  | some _, none => true
  | some r, some e => !r.cfg.kind.ends.contains e

/-- TRAIN n PLACE s DIR e (R93). -/
def cmdTrainPlace (n x : Nat) (e : Option EndName) (s : State) : State × Reply :=
  if Config.maxTrains ≤ n ∨ Config.maxSections ≤ x ∨ s.badEnd x e then (s, .no .range none)
  else
    match s.train? n, s.section? x, e with
    | some t, some r, some e =>
      if t.state = .unused then (s, .no .unknown none)
      else if s.mode = .config then (s, .no .mode none)
      else if t.state = .active then (s, .no .state (some (.train n)))
      else if t.driver ≠ .link then (s, .no .owned none)
      else if !s.healthy then (s, .no .state (some .chain))
      else if (s.holder x).isSome then (s, .no .occupied (some (.sec x)))
      else
        match s.placeEntry x r.cfg.kind e with
        | none => (s, .no .state (r.cfg.point.map Obj.point))
        | some f =>
          let s1 := changeHolds n (fun t => { t with
            state := .active, list := [{ sec := x, exit := e, entry := f }], current := 0, demand := 0
            cap := none, remembered := none, ambiguity := none }) s
          let s2 := (endAmbiguity x s1).report (.trainActive n x)
          (settled n x (judgeLost n (ixAppend n x none s2)), .ok (.trainActive n))
    | _, _, _ => (s, .no .unknown none)

/-- TRAIN n REMOVE (R94). -/
def cmdTrainRemove (n : Nat) (s : State) : State × Reply :=
  match trainRefusal n s with
  | some c => (s, .no c none)
  | none =>
    match s.train? n with
    | none => (s, .no .unknown none)
    | some t =>
      if t.state = .unplaced ∨ (t.state = .active ∧ t.current ≠ 0) then (s, .no .state (some (.train n)))
      else (unplace n .removed s, .ok (.trainUnplaced n))

/-- TRAIN n SPEED v (R102). -/
def cmdTrainSpeed (n v : Nat) (s : State) : State × Reply :=
  if 127 < v then (s, .no .range none)
  else
    match trainRefusal n s with
    | some c => (s, .no c none)
    | none =>
      match s.train? n with
      | none => (s, .no .unknown none)
      | some t =>
        if t.state ≠ .active then (s, .no .state (some (.train n)))
        else if t.driver ≠ .link then (s, .no .owned none)
        else if s.stopped ∧ v ≠ 0 then (s, .no .stopped none)
        else (s.setTrain n fun t => { t with demand := v }, .ok (.trainSpeed n v))

/-- TRAIN n REVERSE (R103). -/
def cmdTrainReverse (n : Nat) (s : State) : State × Reply :=
  match trainRefusal n s with
  | some c => (s, .no c none)
  | none =>
    match s.train? n with
    | none => (s, .no .unknown none)
    | some t =>
      if t.state ≠ .active then (s, .no .state (some (.train n)))
      else if t.driver ≠ .link then (s, .no .owned none)
      else if t.reversing then (s, .ok .bare)
      else
        let s1 := changeHolds n (fun t => { t with reversing := true }) s
        (if t.current = 0 then completeReversal n s1 else s1, .ok .bare)

/-- TRAIN n RELEASE resolves an ambiguity in favour of `n` (R96). A signal passed by the claim is judged by the
aspects as they stand at the command (log 41). The claim is made whatever the chain condition (log 49). -/
def resolveAmbiguity (n x : Nat) (s : State) : State :=
  let s1 := endAmbiguity x s
  match (s1.train? n).bind fun t => t.lead with
  | none => s1
  | some l =>
    match s1.across l.sec l.exit with
    | some (y, f) =>
      if y = x ∧ s1.occupied x ∧ s1.holder x = none then claim n x f (aspectIn s1.aspects) s1 else s1
    | none => s1

/-- TRAIN n RELEASE (R91, R96). -/
def cmdTrainRelease (n : Nat) (s : State) : State × Reply :=
  match trainRefusal n s with
  | some c => (s, .no c none)
  | none =>
    match s.train? n with
    | none => (s, .no .unknown none)
    | some t =>
      if t.state ≠ .active then (s, .no .state none)
      else
        let s1 := (changeHolds n (fun t => { t with passedStop := false }) s).report (.trainReleased n)
        (match t.ambiguity with
          | some x => resolveAmbiguity n x s1
          | none => s1, .ok (.trainReleased n))

/-- TRAIN n RUNLIST mode r1 … rk (R104). -/
def cmdTrainRunlist (n : Nat) (mode : RunMode) (routes : List Nat) (s : State) : State × Reply :=
  if Config.maxTrains ≤ n ∨ routes.any (fun r => decide (Config.maxRoutes ≤ r)) then (s, .no .range none)
  else if 8 < routes.length then (s, .no .limit none)
  else
    match s.train? n with
    | none => (s, .no .unknown none)
    | some t =>
      if t.driver ≠ .link then (s, .no .owned none)
      else
        let s1 := withdrawRequests (.train n) s
        let s2 := s1.setTrain n fun t => { t with
          mark := .none, cfg := { t.cfg with runList := routes, runMode := mode } }
        (if s2.mode = .run then s2.hand (.placement n) else s2, .ok (.trainRunlist n))

end Sys2Proof.Machine
end

