-- ==== Sys2Proof/Machine/Shows.lean ====
section
/-! DEFINITION. Visitor shows and the mimic panel (sections 9.1 to 9.3). -/

namespace Sys2Proof.Machine

open Sys2Proof

/-! ## Readings -/

/-- The shows with `p`, ascending. -/
def State.showsWith (s : State) (p : ShowRec → Bool) : List Nat :=
  (s.vu.shows.filter fun e => p e.2).map fun e => e.1

/-- The driver of train `n`. -/
def State.driverOf (s : State) (n : Nat) : Option Driver := (s.train? n).map fun t => t.driver

/-- The state of show `n`. -/
def State.showState (s : State) (n : Nat) : Option ShowState := (s.show? n).map fun w => w.state

/-- The leg a show is in. -/
def ShowRec.legRec (w : ShowRec) : Leg := (w.cfg.legs[w.leg]?).getD {}

/-- The show's train is DEFINED and ACTIVE. -/
def State.showTrainActive (s : State) (c : ShowCfg) : Bool :=
  match c.train with
  | none => false
  | some n => s.active n

/-- A show is available (R138). -/
def State.available (s : State) (c : ShowCfg) : Bool :=
  s.mode == .run && c.enabled && s.showTrainActive c

/-- A PENDING show of configuration `c` may start, as far as its train and the part go (R140). -/
def State.mayStart (s : State) (c : ShowCfg) : Bool :=
  decide ((s.showsWith fun w => w.state == .running).length < 4) && !s.stopped
    && (match c.train.bind s.train? with
      | none => false
      | some t => t.state == .active && !t.held && t.driver == .link && t.current == 0)

/-- Changes the train of show record `w`. -/
def onShowTrain (w : ShowRec) (f : Nat → State → State) (s : State) : State :=
  match w.cfg.train with
  | none => s
  | some n => f n s

/-- The demand of train `n`. -/
def setDemand (v n : Nat) (s : State) : State := s.setTrain n fun t => { t with demand := v }

/-- SHOW-WAIT of train `n` (R91). -/
def setShowWait (v : Bool) (n : Nat) (s : State) : State := changeHolds n (fun t => { t with showWait := v }) s

/-- Takes show `n` out of the waiting line. -/
def State.unwait (s : State) (n : Nat) : State :=
  { s with vu := { s.vu with waiting := s.vu.waiting.filter fun m => m != n } }

/-- Show `n` takes state `st`, reported (R138). -/
def changeShow (n : Nat) (st : ShowState) (f : ShowRec → ShowRec) (s : State) : State :=
  (s.setShow n fun w => f { w with state := st }).report (.showState n st)

/-- Every timer of a show stops, and store pending becomes NO (R143). -/
def ShowRec.quiet (w : ShowRec) : ShowRec :=
  { w with legTimer := none, dwellTimer := none, storePending := false }

/-! ## Availability (R138) -/

/-- The availability of show `n` is judged (R138). -/
def judgeAvailable (n : Nat) (s : State) : State :=
  match s.show? n with
  | none => s
  | some w =>
    match w.state with
    | .unavailable => if s.available w.cfg then changeShow n .ready id s else s
    | .ready | .pending => if s.available w.cfg then s else changeShow n .unavailable id (s.unwait n)
    | .running | .cooling => s

/-! ## Legs (R141, R142) -/

/-- The leg's dwell starts; a dwell of 0 ends at once (R141, R142). -/
def enterDwell (n : Nat) (w : ShowRec) (s : State) : State :=
  let d := w.legRec.dwell
  let s1 := s.setShow n fun w => { w with
    phase := .dwell, dwellTimer := if d = 0 then none else some (s.now + seconds d) }
  if d = 0 then s1.hand (.dwellOver n) else s1

/-- A leg enters RUN: SHOW-WAIT leaves, and the demand becomes the leg's step (R141). -/
def enterRun (n : Nat) (w : ShowRec) (s : State) : State :=
  let s1 := s.setShow n fun w => { w with phase := .run, storePending := false, legOccupied := false }
  onShowTrain w (fun t s => setDemand w.legRec.step t (setShowWait false t s)) s1

/-- Store pending of show `n`. -/
def setStorePending (n : Nat) (v : Bool) (s : State) : State := s.setShow n fun w => { w with storePending := v }

/-- Route `r` is SET. -/
def State.routeIsSet (s : State) (r : Nat) : Bool :=
  match s.route? r with
  | some q => q.state == .set
  | none => false

/-- The leg's route is stored, or stored again, and the outcome judged (R141). -/
def storeLeg (n r : Nat) (w : ShowRec) (s : State) : State :=
  match storeRequest r (.show n) (some w.legExpiry) s with
  | (s1, .started) => if s1.routeIsSet r then enterRun n w s1 else setStorePending n false s1
  | (s1, .queued) => setStorePending n false s1
  | (s1, .refused .state _) => if s1.routeIsSet r then enterRun n w s1 else setStorePending n true s1
  | (s1, .refused .full _) => setStorePending n true s1
  | (s1, .refused _ _) => s1

/-- A leg with a route enters ROUTE-WAIT (R141). -/
def enterRouteWait (n r : Nat) (w : ShowRec) (s : State) : State :=
  let s1 := s.setShow n fun w => { w with phase := .routeWait, legOccupied := false }
  storeLeg n r w (onShowTrain w (fun t s => setDemand 0 t (setShowWait true t s)) s1)

/-- Leg `i` of show `n` begins (R141). -/
def beginLeg (n i : Nat) (s : State) : State :=
  match s.show? n with
  | none => s
  | some w0 =>
    let due := s.now + seconds w0.cfg.legTimeout
    let w := { w0 with leg := i, legTimer := some due, dwellTimer := none, legExpiry := due, legOccupied := false }
    let s1 := (s.setShow n fun _ => w).report (.showLeg n i)
    match w.legRec.route with
    | none => enterDwell n w s1
    | some r => enterRouteWait n r w s1

/-! ## Starting (R140) -/

/-- The driver of the show's train becomes SHOW `n` (R102, R140). -/
def takeDriver (n t : Nat) (s : State) : State :=
  withdrawRequests (.train t) (s.setTrain t fun r => { r with driver := .show n, demand := 0, mark := .none })

/-- Show `n` starts (R140). -/
def startShow (n : Nat) (w : ShowRec) (s : State) : State :=
  let s1 := changeShow n .running id (s.unwait n)
  beginLeg n 0 (onShowTrain w (takeDriver n) s1)

/-- One show of the waiting line is visited (R140). -/
def visitShow (n : Nat) (s : State) : State :=
  match s.show? n with
  | none => s
  | some w => if w.state = .pending ∧ s.mayStart w.cfg then startShow n w s else s

/-- A start is judged: the waiting line is visited from oldest to newest (R140). -/
def judgeStart (s : State) : State := foldState visitShow s.vu.waiting s

/-- A press of show `n`'s button (R139). -/
def pressShow (n : Nat) (s : State) : State :=
  match s.show? n with
  | none => s
  | some w =>
    if w.state = .ready then
      let s1 := changeShow n .pending id s
      { s1 with vu := { s1.vu with waiting := s1.vu.waiting ++ [n] } }.hand .judgeStart
    else s

/-! ## Ends (R142, R143) -/

/-- The driver of train `t` becomes LINK again, the demand 0, SHOW-WAIT not held (R142, R143). A train that its removal
has given the driver LINK already keeps the demand 0 and the empty hold set of the removal (R94, R143), whatever the
route changes that the show took before it was told of the removal had written there (log 75). -/
def returnDriver (n t : Nat) (s : State) : State :=
  match s.train? t with
  | none => s
  | some r =>
    if r.driver = .show n then
      (changeHolds t (fun r => { r with showWait := false, demand := 0, driver := .link }) s).hand (.driverLink t)
    else if r.driver = .link ∧ r.state ≠ .active then
      changeHolds t (fun r => { r with showWait := false, demand := 0 }) s
    else s

/-- The cool-down of show `n` starts (R142, R143). The leg and the phase are put back to their values after power-on (the
model's choice, log 52). -/
def ShowRec.cool (w : ShowRec) (now : Nat) : ShowRec :=
  { w.quiet with coolTimer := some (now + seconds w.cfg.coolDown), leg := 0, phase := .routeWait }

/-- Show `n` is complete (R142). -/
def completeShow (n : Nat) (w : ShowRec) (s : State) : State :=
  (changeShow n .cooling (fun w => w.cool s.now) (onShowTrain w (returnDriver n) s)).hand .judgeStart

/-- A RUNNING show aborts (R143). -/
def abortShow (n : Nat) (cause : AbortCause) (s : State) : State :=
  match s.show? n with
  | none => s
  | some w =>
    if w.state = .running then
      let s1 := onShowTrain w (returnDriver n) (withdrawRequests (.show n) s)
      let s2 := s1.setShow n fun w => { w.cool s.now with state := .cooling }
      (s2.report (.showAbort n cause)).hand .judgeStart
    else s

/-- A leg ends: the next begins, or the show is complete (R142). -/
def endLeg (n : Nat) (w : ShowRec) (s : State) : State :=
  if w.leg + 1 < w.cfg.legs.length then beginLeg n (w.leg + 1) s else completeShow n w s

/-- The train of a show stands alone on the bridge with an exit end other than `e` (R142). -/
def State.facesAway (s : State) (t : Nat) (e : BridgeEnd) : Bool :=
  match s.listOf t with
  | [m] => s.bridgeSection == some m.sec && m.exit != e.toEnd
  | _ => false

/-- The bridge stands at the target: the train is checked, and the TURN phase ends (R142). -/
def endTurn (n : Nat) (w : ShowRec) (s : State) : State :=
  let s1 := onShowTrain w (fun t s =>
    match w.legRec.target with
    | some (_, e) =>
      if s.facesAway t e then completeReversal t (changeHolds t (fun r => { r with reversing := true }) s) else s
    | none => s) s
  endLeg n w (s1.setShow n fun w => { w with legTimer := none })

/-- The dwell of show `n` is over (R142). -/
def dwellOver (n : Nat) (s : State) : State :=
  match s.show? n with
  | none => s
  | some w =>
    if w.state = .running ∧ w.phase = .dwell then
      match w.legRec.target with
      | none => endLeg n w (s.setShow n fun w => { w with dwellTimer := none })
      | some (k, e) =>
        let s1 := s.setShow n fun w => { w with
          phase := .turn, dwellTimer := none, legTimer := some (s.now + seconds w.cfg.legTimeout) }
        match requestMove k e none (.show n) s1 with
        | .error _ => abortShow n .turn s1
        | .ok (s2, none) => endTurn n w s2
        | .ok (s2, some _) => s2
    else s

/-- A leg in RUN is judged for arrival (R142). -/
def judgeArrival (t n : Nat) (s : State) : State :=
  match s.show? n with
  | none => s
  | some w =>
    match w.legRec.route.bind s.route? with
    | none => s
    | some q =>
      if w.state = .running ∧ w.phase = .run ∧ w.cfg.train = some t ∧ s.leadInFinal t q.cfg ∧ s.currentOf t = 0
      then enterDwell n w (setDemand 0 t (s.setShow n fun w => { w with legTimer := none }))
      else s

/-- Every show that train `t` runs is judged for arrival (R142). Several are taken in ascending order (the model's
choice, log 56). -/
def judgeArrivals (t : Nat) (s : State) : State :=
  foldState (judgeArrival t) (s.showsWith fun w => w.state == .running && w.cfg.train == some t) s

/-! ## What the other units hand the visitor unit -/

/-- The leg's route of show record `w` is `r`. -/
def ShowRec.legRoute (w : ShowRec) (r : Nat) : Bool := w.state == .running && w.legRec.route == some r

/-- One show takes a change of route `r` to `st` (R141). -/
def showRoute (r : Nat) (st : RouteState) (n : Nat) (s : State) : State :=
  match s.show? n with
  | none => s
  | some w =>
    if w.legRoute r ∧ w.phase = .routeWait ∧ st = .set then enterRun n w s
    else if w.legRoute r ∧ w.phase = .run ∧ st = .occupied ∧ ((s.route? r).bind fun q => q.train) = w.cfg.train then
      s.setShow n fun w => { w with legOccupied := true }
    else if w.legRoute r ∧ w.phase = .run ∧ st = .idle ∧ w.legOccupied = false then enterRouteWait n r w s
    else if w.state = .running ∧ w.phase = .routeWait ∧ w.storePending then
      match w.legRec.route with
      | some k => storeLeg n k w s
      | none => s
    else s

/-- The visitor unit takes a change of a route's state (R141). Several shows go in ascending order (the model's
choice, log 56). -/
def vuRouteChange (r : Nat) (st : RouteState) (s : State) : State :=
  foldState (showRoute r st) (s.showsWith fun w => w.state == .running) s

/-- The visitor unit takes the failure of route `r`: every RUNNING show whose leg's route it is aborts (R141, R143).
Several are taken in ascending order (the model's choice, log 56). -/
def vuRouteFail (r : Nat) (s : State) : State :=
  foldState (fun n s => abortShow n .route s) (s.showsWith fun w => w.legRoute r) s

/-- The entry of show `n` for route `r` was dropped (R141, R143). -/
def vuRequestDropped (n r : Nat) (cause : RequestDrop) (s : State) : State :=
  match s.show? n with
  | none => s
  | some w =>
    if w.legRoute r then
      match cause with
      | .can => abortShow n .route s
      | .expiry => abortShow n .timeout s
      | .withdrawn | .mode => s
    else s

/-- A bridge move that show `n` asked for has ended (R142). -/
def vuMoveEnded (n : Nat) (out : MoveOutcome) (s : State) : State :=
  match s.show? n with
  | none => s
  | some w =>
    if w.state = .running ∧ w.phase = .turn then
      match out with
      | .atTarget => endTurn n w s
      | .elsewhere | .fault => abortShow n .turn s
    else s

/-- The visitor unit takes a change of train `t`'s state (R138, R140, R143). Several shows of one train go in
ascending order (the model's choice, log 56). -/
def vuTrainChange (t : Nat) (e : TrainEvent) (s : State) : State :=
  let mine := s.showsWith fun w => w.cfg.train == some t
  let s1 := match e with
    | .lost => foldState (fun n s => abortShow n .lost s) mine s
    | .removed => foldState (fun n s => abortShow n .removed s) mine s
    | .active | .other => s
  (foldState judgeAvailable mine s1).hand .judgeStart

/-- Train `t` has passed a signal at STOP: the show that drives it aborts (R98, R143). -/
def vuPassedStop (t : Nat) (s : State) : State :=
  match s.driverOf t with
  | some (.show n) => abortShow n .passedStop s
  | _ => s

/-- The visitor unit takes a change of train `t`'s current step to or from 0 (R117, R140, R142, R145). -/
def vuStepChange (t : Nat) (s : State) : State :=
  if s.currentOf t = 0 then (judgeArrivals t s).hand .judgeStart
  else s.setTrain t fun r => { r with departure := some s.now }

/-- Emergency stop becomes active: every RUNNING show aborts (R143). They go in ascending order (the model's choice,
log 56). -/
def showsStop (s : State) : State :=
  foldState (fun n s => abortShow n .stop s) (s.showsWith fun w => w.state == .running) s

/-! ## Timers (R141, R142, R143) -/

/-- The leg timer of show `n` expires. -/
def legExpiry (n : Nat) (s : State) : State :=
  match s.show? n with
  | some w => if w.state = .running ∧ w.legTimer.isSome then abortShow n .timeout (s.expire w.legTimer) else s
  | none => s

/-- The dwell timer of show `n` expires. -/
def showDwellExpiry (n : Nat) (s : State) : State :=
  match s.show? n with
  | some w => if w.dwellTimer.isSome then dwellOver n (s.expire w.dwellTimer) else s
  | none => s

/-- The cool-down timer of show `n` expires (R143). -/
def coolExpiry (n : Nat) (s : State) : State :=
  match s.show? n with
  | some w =>
    if w.state = .cooling ∧ w.coolTimer.isSome then
      let s1 := s.expire w.coolTimer
      changeShow n (if s1.available w.cfg then .ready else .unavailable) (fun w => { w with coolTimer := none }) s1
    else s
  | none => s

/-! ## The commands (R143, R102) -/

/-- The refusals of a show command for range and ABSENT. -/
def showRefusal (n : Nat) (s : State) : Option Code :=
  if Config.maxShows ≤ n then some .range else if (s.show? n).isNone then some .unknown else none

/-- OK SHOW n and the state as it stands. -/
def showReply (n : Nat) (s : State) : Reply :=
  match s.show? n with
  | some w => .ok (.show n w.state)
  | none => .no .unknown none

/-- SHOW n ENABLE (R143). -/
def cmdShowEnable (n : Nat) (s : State) : State × Reply :=
  match showRefusal n s with
  | some c => (s, .no c none)
  | none =>
    let s1 := judgeAvailable n (s.setShow n fun w => { w with cfg := { w.cfg with enabled := true } })
    (s1, showReply n s1)

/-- SHOW n DISABLE (R143). -/
def cmdShowDisable (n : Nat) (s : State) : State × Reply :=
  match showRefusal n s with
  | some c => (s, .no c none)
  | none =>
    let s1 := s.setShow n fun w => { w with cfg := { w.cfg with enabled := false } }
    let s2 := judgeAvailable n (abortShow n .disable s1)
    (s2, showReply n s2)

/-- SHOW n ABORT (R143). -/
def cmdShowAbort (n : Nat) (s : State) : State × Reply :=
  match showRefusal n s with
  | some c => (s, .no c none)
  | none =>
    if s.mode = .config then (s, .no .mode none)
    else
      match s.showState n with
      | some .running => (abortShow n .host s, .ok (.show n .cooling))
      | some .pending => (changeShow n .ready id (s.unwait n), .ok (.show n .ready))
      | _ => (s, .no .state (some (.show n)))

/-- TRAIN n TAKE (R102). -/
def cmdTrainTake (n : Nat) (s : State) : State × Reply :=
  match trainRefusal n s with
  | some c => (s, .no c none)
  | none =>
    match s.driverOf n with
    | some (.show m) => (abortShow m .take s, .ok (.trainLink n))
    | _ => (s, .ok (.trainLink n))

/-! ## The mimic panel (R144) -/

/-- ON or OFF. -/
def onOff (b : Bool) : OutValue := if b then .on else .off

/-- The output value of a mimic source, as the state stands (R144). -/
def State.mimicValue (s : State) : MimicSource → OutValue
  | .sectionOcc x =>
    if s.occupied x then (if (s.holder x).isSome then .on else .flash) else .off
  | .sectionLock x => onOff (s.lockOf x).isSome
  | .pointPos p pos =>
    match s.point? p with
    | none => .off
    | some r =>
      match r.position with
      | .normal => onOff (pos == .n)
      | .reverse => onOff (pos == .r)
      | _ => .flash
  | .signalProceed g =>
    match s.signal? g with
    | none => .off
    | some r => onOff (r.aspect != .stop)
  | .road k =>
    match Table.find s.tu.roads k with
    | none => .off
    | some _ =>
      match s.tu.state, s.tu.move with
      | .aligned, _ => onOff (s.tu.faceA == some k || s.tu.faceB == some k)
      | .moving, some m | .stopping, some m => if m.road = k then .flash else .off
      | _, _ => .off
  | .showLamp n =>
    match s.show? n with
    | none => .off
    | some w =>
      match w.state with
      | .ready => .on
      | .pending | .running => .flash
      | .cooling | .unavailable => .off

end Sys2Proof.Machine
end

