-- ==== Sys2Proof/Machine/Boards.lean ====
section
/-! DEFINITION. Display boards and the board link (section 9.4), with the frames of R157. -/

namespace Sys2Proof.Machine

open Sys2Proof

/-! ## Composed text (R145) -/

/-- A text in `n` characters, left-aligned and padded with spaces. -/
def padded (n : Nat) (t : Text) : Text := (t ++ List.replicate (n - t.length) ' ').take n

/-- The decimal digits of a number. -/
def digits (n : Nat) : Text := Nat.toDigits 10 n

/-- The platform number of section `x`, if it is a PLATFORM section. -/
def State.platformOf (s : State) (x : Nat) : Option Nat := (s.section? x).bind fun r => r.cfg.platform

/-- The platform number of the lead's section. -/
def State.leadPlatform (s : State) (t : TrainRec) : Option Nat := t.lead.bind fun e => s.platformOf e.sec

/-- A train is falling: its current step is above 0 and below the value read at the judgement before (R145). -/
def TrainRec.falling (t : TrainRec) : Bool := decide (0 < t.current) && decide (t.current < t.stepRead)

/-- Less than 5 s have passed since the departure time. -/
def State.departing (s : State) (t : TrainRec) : Bool :=
  match t.departure with
  | none => false
  | some d => decide (s.now - d < seconds 5)

/-- The status word of a train: the first line of R145's table that applies. -/
def State.statusWord (s : State) (t : TrainRec) : Text :=
  if t.state = .unplaced then []
  else if t.state = .lost then "DELAYED".toList
  else if t.held then "HELD".toList
  else if t.current = 0 then
    match s.leadPlatform t with
    | some m => "PLATFORM".toList ++ digits m
    | none => "STANDING".toList
  else if (s.leadPlatform t).isSome ∧ t.falling then "ARRIVING".toList
  else if s.departing t then "DEPARTING".toList
  else "RUNNING".toList

/-- The cool-down remaining in whole seconds, rounded up. -/
def State.coolSeconds (s : State) (w : ShowRec) : Nat :=
  match w.coolTimer with
  | none => 0
  | some d => (d - s.now + seconds 1 - 1) / seconds 1

/-- The composed text of a source (R145), before padding to 32 characters. -/
def State.sourceText (s : State) : LineSource → Text
  | .blank => []
  | .text t => t
  | .train n =>
    match s.train? n with
    | none => []
    | some t =>
      if t.state = .unused then []
      else padded 6 (t.cfg.tag.getD []) ++ [' '] ++ padded 15 t.cfg.destination ++ [' '] ++ padded 9 (s.statusWord t)
  | .show n =>
    match s.show? n with
    | none => []
    | some w =>
      match w.state with
      | .ready => "READY".toList
      | .pending | .running => "RUNNING".toList
      | .cooling => "NEXT IN ".toList ++ digits (s.coolSeconds w) ++ " S".toList
      | .unavailable => "NOT TODAY".toList

/-- The composed text of a line: 32 characters (R145). -/
def State.composeLine (s : State) (src : LineSource) : Text := padded 32 (s.sourceText src)

/-! ## Records of boards and lines, numbered from 1 -/

/-- Board `b`. -/
def State.board (s : State) (b : Nat) : Board := (s.vu.boards[b - 1]?).getD {}

/-- Line `l` of a board. -/
def Board.line (r : Board) (l : Nat) : BoardLine := (r.lines[l - 1]?).getD {}

/-- Changes board `b`. -/
def State.setBoard (s : State) (b : Nat) (f : Board → Board) : State :=
  { s with vu := { s.vu with boards := s.vu.boards.modify (b - 1) f } }

/-- Changes line `l` of board `b`. -/
def State.setLine (s : State) (b l : Nat) (f : BoardLine → BoardLine) : State :=
  s.setBoard b fun r => { r with lines := r.lines.modify (l - 1) f }

/-- The text of line `l` of board `b`, composed now. -/
def State.lineText (s : State) (b l : Nat) : Text := s.composeLine ((s.board b).line l).source

/-- Entry `(b, l)` joins the back of the update queue unless it stands in it (R146). -/
def queueLine (b l : Nat) (s : State) : State :=
  if s.vu.boardQueue.contains (b, l) then s
  else { s with vu := { s.vu with boardQueue := s.vu.boardQueue ++ [(b, l)] } }

/-- The update queue without `(b, l)`. -/
def State.unqueueLine (s : State) (b l : Nat) : State :=
  { s with vu := { s.vu with boardQueue := s.vu.boardQueue.filter fun e => e != (b, l) } }

/-! ## The link (R147, R148) -/

/-- The lowest-numbered board whose probe is due. -/
def State.dueProbe (s : State) : Option Nat := [1, 2, 3, 4].find? fun b => (s.board b).probeDue

/-- A frame begins: the link becomes SENDING. -/
def sendFrame (f : Frame) (s : State) : State := { s with vu := { s.vu with link := .sending f } }

/-- The link is left IDLE. -/
def idleLink (s : State) : State := { s with vu := { s.vu with link := .idle } }

/-- The oldest entry of an ONLINE board whose text differs from the text last acknowledged is sent; an entry
found equal is removed (R146, R147). -/
def sendOldest : List (Nat × Nat) → State → State
  | [], s => s
  | (b, l) :: rest, s =>
    if (s.board b).online then
      let t := s.lineText b l
      if ((s.board b).line l).acked = some t then sendOldest rest (s.unqueueLine b l)
      else sendFrame (.line b l t false) s
    else sendOldest rest s

/-- The link's arbiter: when IDLE, a due probe first, then the oldest entry of an ONLINE board (R147). -/
def chooseTransfer (s : State) : State :=
  match s.vu.link with
  | .idle =>
    match s.dueProbe with
    | some b => sendFrame (.probe b) (s.setBoard b fun r => { r with probeDue := false })
    | none => sendOldest s.vu.boardQueue s
  | _ => s

/-- A line is judged; an entry that joins while the link is IDLE has the next transfer chosen at once, before
the steps are read again (R146, R147). -/
def judgeLine (b l : Nat) (s : State) : State :=
  if ((s.board b).line l).acked = some (s.lineText b l) then s else chooseTransfer (queueLine b l s)

/-- Each train's current step is read for the falling test (R146). -/
def readSteps (s : State) : State :=
  { s with tt := { s.tt with trains := Table.mapVals s.tt.trains fun t => { t with stepRead := t.current } } }

/-- The sixteen lines, board by board. Lines found changed at one judgement join the queue in this order (the model's
choice, log 56). -/
def allLines : List (Nat × Nat) :=
  [1, 2, 3, 4].flatMap fun b => [(b, 1), (b, 2), (b, 3), (b, 4)]

/-- The 100 ms judgement of every line (R146). -/
def judgeLines (s : State) : State :=
  let s1 := s.reach s.vu.judgeDue
  let s2 := readSteps (foldState (fun e s => judgeLine e.1 e.2 s) allLines s1)
  { s2 with vu := { s2.vu with judgeDue := s2.vu.judgeDue + ms 100 } }

/-- BDIR is on while SENDING (R147). -/
def State.bdir (s : State) : Bool :=
  match s.vu.link with
  | .sending _ => true
  | _ => false

/-- The sum of bytes modulo 256 (R147). -/
def byteSum (bs : List Byte) : Byte := bs.foldl (· + ·) 0

/-- A frame's bytes (R157). -/
def Frame.bytes : Frame → List Byte
  | .line b l t _ =>
    let body := [2, BitVec.ofNat 8 b, BitVec.ofNat 8 l] ++ t.map fun c => BitVec.ofNat 8 c.toNat
    body ++ [byteSum body]
  | .probe b =>
    let body := [2, BitVec.ofNat 8 b, 0]
    body ++ [byteSum body]

/-- The answer of a board. -/
inductive Answer where
  | ack | nak | busy
deriving DecidableEq, Repr

/-- The board a frame addresses. -/
def Frame.board : Frame → Nat
  | .line b _ _ _ => b
  | .probe b => b

/-- A reply frame as it is taken from board `b` (R147, R157). -/
def readReply (b : Nat) : List Byte → Answer
  | [m, a, c, k] =>
    if m = 2 ∧ a = BitVec.ofNat 8 b ∧ k = byteSum [m, a, c] then
      if c = 6 then .ack else if c = 17 then .busy else .nak
    else .nak
  | _ => .nak

/-- Board `b` becomes OFFLINE (R147). -/
def boardOffline (b : Nat) (s : State) : State :=
  (s.setBoard b fun r => { r with online := false, probeTimer := some (s.now + seconds 5) }).report (.board b false)

/-- Board `b` becomes ONLINE: every line of it is counted as unsent (R148). -/
def boardOnline (b : Nat) (s : State) : State :=
  let s1 := (s.setBoard b fun r => { r with
    online := true, probeTimer := none, lines := r.lines.map fun l => { l with acked := none } }).report (.board b true)
  foldState (queueLine b) [1, 2, 3, 4] s1

/-- The outcome of a frame (R147, R148). -/
def frameOutcome (f : Frame) (a : Answer) (s : State) : State :=
  match f, a with
  | .line b l t _, .ack => idleLink ((s.setLine b l fun r => { r with acked := some t }).unqueueLine b l)
  | .line b l _ _, .busy =>
    idleLink (let s1 := s.unqueueLine b l
      if s.vu.boardQueue.contains (b, l) then queueLine b l s1 else s1)
  | .line b l t false, .nak => sendFrame (.line b l t true) s
  | .line b _ _ true, .nak => idleLink (boardOffline b s)
  | .probe b, .ack | .probe b, .busy => idleLink (boardOnline b s)
  | .probe b, .nak => idleLink (s.setBoard b fun r => { r with probeTimer := some (s.now + seconds 5) })

/-- The last byte of a frame has gone (R147). -/
def frameSent (s : State) : State :=
  match s.vu.link with
  | .sending f => { s with vu := { s.vu with link := .awaiting f (s.now + ms 20) } }
  | _ => s

/-- A reply frame arrives; one that no transfer awaits is discarded (R147). -/
def replyFrame (bytes : List Byte) (s : State) : State :=
  match s.vu.link with
  | .awaiting f _ => frameOutcome f (readReply f.board bytes) s
  | _ => s

/-- The reply timer expires (R147). -/
def replyTimeout (s : State) : State :=
  match s.vu.link with
  | .awaiting f due => frameOutcome f .nak (s.reach due)
  | _ => s

/-- The probe timer of board `b` expires: its probe is due (R148). -/
def probeExpiry (b : Nat) (s : State) : State :=
  let r := s.board b
  if 1 ≤ b ∧ b ≤ 4 ∧ r.probeTimer.isSome then
    (s.expire r.probeTimer).setBoard b fun r => { r with probeTimer := none, probeDue := true }
  else s

/-! ## The commands (R145) -/

/-- A line exists. -/
def lineExists (b l : Nat) : Bool :=
  decide (1 ≤ b) && decide (b ≤ 4) && decide (1 ≤ l) && decide (l ≤ 4)

/-- The source of line `l` of board `b` is written, and the line judged at once (R145, R146). -/
def setSource (b l : Nat) (src : LineSource) (s : State) : State :=
  readSteps (judgeLine b l (s.setLine b l fun r => { r with source := src }))

/-- BOARD b l "text" (R145). -/
def cmdBoardText (b l : Nat) (t : Text) (s : State) : State × Reply :=
  if lineExists b l = false ∨ 32 < t.length then (s, .no .range none)
  else (setSource b l (.text t) s, .ok (.board b l))

/-- BOARD b l SOURCE … (R145). -/
def cmdBoardSource (b l : Nat) (w : SourceWord) (s : State) : State × Reply :=
  if lineExists b l = false then (s, .no .range none)
  else
    match w with
    | .train n =>
      if Config.maxTrains ≤ n then (s, .no .range none) else (setSource b l (.train n) s, .ok (.board b l))
    | .show n =>
      if Config.maxShows ≤ n then (s, .no .range none) else (setSource b l (.show n) s, .ok (.board b l))
    | .blank => (setSource b l .blank s, .ok (.board b l))

end Sys2Proof.Machine
end

