-- ==== Sys2Proof/Machine/Lines.lean ====
section
/-! DEFINITION. The characters of the lines the part sends (R149, R153, R157): replies, reports and the bytes of the
line on TXD. -/

namespace Sys2Proof.Machine

open Sys2Proof

/-- FREE VALUE, log 10: the words after OK in the reply to a GET. The rule of each kind says what the reply carries
and not the words that carry it. -/
opaque getWords : OkBody → List Text

/-! ## Words -/

/-- A word written in the spec's letters. -/
def word (w : String) : Text := w.toList

/-- Words with one space between them. -/
def joinWords : List Text → Text
  | [] => []
  | [w] => w
  | w :: rest => w ++ ' ' :: joinWords rest

/-- A signed number: − in front when it is below 0 (R157). -/
def signedDigits (d : Int) : Text := if d < 0 then '-' :: digits d.natAbs else digits d.natAbs

/-- A terminal, m.t (R157). -/
def TermId.text (t : TermId) : Text := digits t.module ++ '.' :: digits t.terminal

/-- N or R. -/
def posWord : PointPos → Text
  | .n => word "N"
  | .r => word "R"

/-- A or B. -/
def endWord : BridgeEnd → Text
  | .a => word "A"
  | .b => word "B"

/-- CW or CCW. -/
def dirWord : MoveDir → Text
  | .cw => word "CW"
  | .ccw => word "CCW"

/-- The words of an origin (R54). -/
def originWords : Origin → List Text
  | .link => [word "LINK"]
  | .train n => [word "TRAIN", digits n]
  | .show n => [word "SHOW", digits n]
  | .route r => [word "ROUTE", digits r]

/-- The words of an object named by a refusal or a report (R12, R58, R153). -/
def objWords : Obj → List Text
  | .sec x => [word "SECTION", digits x]
  | .point p => [word "POINT", digits p]
  | .route r => [word "ROUTE", digits r]
  | .signal g => [word "SIGNAL", digits g]
  | .train n => [word "TRAIN", digits n]
  | .show n => [word "SHOW", digits n]
  | .road k => [word "ROAD", digits k]
  | .channel c => [word "CHANNEL", digits c]
  | .terminal t => [word "TERMINAL", TermId.text t]
  | .turntable => [word "TURNTABLE"]
  | .chain => [word "CHAIN"]
  | .loop => [word "LOOP"]
  | .word w => [w]

/-- The words of a reply code (R153). -/
def codeWord : Code → Text
  | .badForm => word "SYNTAX"
  | .unknown => word "UNKNOWN"
  | .range => word "RANGE"
  | .mode => word "MODE"
  | .busy => word "BUSY"
  | .state => word "STATE"
  | .conflict => word "CONFLICT"
  | .occupied => word "OCCUPIED"
  | .locked => word "LOCKED"
  | .failed => word "FAILED"
  | .full => word "FULL"
  | .limit => word "LIMIT"
  | .stopped => word "STOPPED"
  | .owned => word "OWNED"
  | .long => word "LONG"
  | .late => word "LATE"
  | .invalid => word "INVALID"

/-- The check words (section 1.6). -/
def checkWord : CheckWord → Text
  | .topology => word "TOPOLOGY"
  | .path => word "PATH"
  | .role => word "ROLE"
  | .stopchan => word "STOPCHAN"
  | .polarity => word "POLARITY"
  | .turntable => word "TURNTABLE"
  | .runs => word "RUNS"
  | .calibration => word "CALIBRATION"

/-- The report classes (R155). -/
def classWord : ReportClass → Text
  | .sec => word "SEC"
  | .point => word "POINT"
  | .signal => word "SIGNAL"
  | .route => word "ROUTE"
  | .train => word "TRAIN"
  | .turn => word "TURN"
  | .show => word "SHOW"
  | .board => word "BOARD"
  | .chain => word "CHAIN"
  | .aux => word "AUX"
  | .sys => word "SYS"

/-- RUN or CONFIG. -/
def modeWord : Mode → Text
  | .run => word "RUN"
  | .config => word "CONFIG"

/-- The aspects (section 5.2). -/
def aspectWord : Aspect → Text
  | .stop => word "STOP"
  | .shunt => word "SHUNT"
  | .caution => word "CAUTION"
  | .prelim => word "PRELIM"
  | .clear => word "CLEAR"

/-- The states of a route (R53). -/
def routeStateWord : RouteState → Text
  | .idle => word "IDLE"
  | .setting => word "SETTING"
  | .set => word "SET"
  | .cancelPending => word "CANCEL-PENDING"
  | .occupied => word "OCCUPIED"

/-- The states of the bridge (R126). -/
def bridgeStateWord : BridgeState → Text
  | .unhomed => word "UNHOMED"
  | .homing => word "HOMING"
  | .stopped => word "STOPPED"
  | .aligned => word "ALIGNED"
  | .moving => word "MOVING"
  | .stopping => word "STOPPING"
  | .fault => word "FAULT"

/-- The states of a show (R138). -/
def showStateWord : ShowState → Text
  | .unavailable => word "UNAVAILABLE"
  | .ready => word "READY"
  | .pending => word "PENDING"
  | .running => word "RUNNING"
  | .cooling => word "COOLING"

/-- The force words (R111). -/
def forceWord : Force → Text
  | .none => word "NONE"
  | .off => word "OFF"
  | .fullPos => word "FULL-POS"
  | .fullNeg => word "FULL-NEG"
  | .float => word "FLOAT"

/-- The scan modes (R37). -/
def scanModeWord : ScanMode → Text
  | .normal => word "NORMAL"
  | .lampTest => word "LAMP-TEST"

/-- The causes of a dropped throw (R41). -/
def dropWord : DropCause → Text
  | .occ => word "OCC"
  | .lock => word "LOCK"
  | .stop => word "STOP"
  | .cancel => word "CANCEL"

/-- The causes of a dropped request (R54). -/
def requestDropWord : RequestDrop → Text
  | .can => word "CAN"
  | .expiry => word "EXPIRY"
  | .withdrawn => word "WITHDRAWN"
  | .mode => word "MODE"

/-- The causes of a route's failure (R66). -/
def failWords : FailCause → List Text
  | .point p => [word "POINT", digits p]
  | .bridge => [word "BRIDGE"]
  | .timeout => [word "TIMEOUT"]
  | .stop => [word "STOP"]

/-- The causes of an abort (R143, R14). -/
def abortWord : AbortCause → Text
  | .timeout => word "TIMEOUT"
  | .route => word "ROUTE"
  | .turn => word "TURN"
  | .stop => word "STOP"
  | .lost => word "LOST"
  | .removed => word "REMOVED"
  | .passedStop => word "PASSED-STOP"
  | .take => word "TAKE"
  | .host => word "HOST"
  | .disable => word "DISABLE"
  | .mode => word "MODE"

/-- The causes of an emergency stop (R158). -/
def stopWords : StopCause → List Text
  | .loop => [word "LOOP"]
  | .button t => [word "BUTTON", TermId.text t]
  | .host => [word "HOST"]

/-- HEALTHY or FAULTY (R31). -/
def healthWord : Health → Text
  | .healthy => word "HEALTHY"
  | .faulty => word "FAULTY"

/-- The chain conditions (R35). -/
def conditionWord : Condition → Text
  | .down => word "DOWN"
  | .settling => word "SETTLING"
  | .healthy => word "HEALTHY"

/-- The words of a chain fault (R29). -/
def chainFaultWords : ChainFault → List Text
  | .tail => [word "TAIL"]
  | .enum p => [word "ENUM", digits p]

/-! ## Reports (R54, R157) -/

/-- The words of a report after its class. -/
def Report.words : Report → List Text
  | .sec x occ => [digits x, if occ then word "OCC" else word "CLEAR"]
  | .aux a v => [digits a, if v then word "1" else word "0"]
  | .pointMoving p pos => [digits p, word "MOVING", posWord pos]
  | .pointAt p pos => [digits p, posWord pos]
  | .pointLate p pos => [digits p, posWord pos, word "LATE"]
  | .pointLost p => [digits p, word "LOST"]
  | .pointDropped p c => [digits p, word "DROPPED", dropWord c]
  | .pointFailed p => [digits p, word "FAILED"]
  | .signal g a => [digits g, aspectWord a]
  | .routeQueued r o => [digits r, word "QUEUED"] ++ originWords o
  | .routeDropped r c => [digits r, word "DROPPED", requestDropWord c]
  | .routeState r st => [digits r, routeStateWord st]
  | .routeOccupied r n => [digits r, word "OCCUPIED", digits n]
  | .routeFailed r c => [digits r, word "FAILED"] ++ failWords c
  | .trainActive n x => [digits n, word "ACTIVE", digits x]
  | .trainLost n x => [digits n, word "LOST", digits x]
  | .trainFound n x => [digits n, word "FOUND", digits x]
  | .trainUnplaced n => [digits n, word "UNPLACED"]
  | .trainReleased n => [digits n, word "RELEASED"]
  | .trainAt n x => [digits n, word "AT", digits x]
  | .trainLong n x => [digits n, word "LONG", digits x]
  | .trainPassedStop n g => [digits n, word "PASSED-STOP", digits g]
  | .trainAmbiguous x ns => [word "AMBIGUOUS", digits x] ++ ns.map digits
  | .trainStray x => [word "STRAY", digits x]
  | .trainReversed n => [digits n, word "REVERSED"]
  | .trainConflict n c => [digits n, word "DRIVE-CONFLICT", digits c]
  | .trainConflictClear n => [digits n, word "DRIVE-CONFLICT", word "CLEAR"]
  | .turnHoming => [word "HOMING"]
  | .turnMoving k e dir => [word "MOVING", digits k, endWord e, dirWord dir]
  | .turnStopping => [word "STOPPING"]
  | .turnStopped p => [word "STOPPED", digits p]
  | .turnAligned k e => [word "ALIGNED", digits k, endWord e]
  | .turnFaultHome => [word "FAULT", word "HOME"]
  | .turnFaultDrift d => [word "FAULT", word "DRIFT", signedDigits d]
  | .turnDrift d => [word "DRIFT", signedDigits d]
  | .turnUnhomed byDefine => [word "UNHOMED", if byDefine then word "DEFINE" else word "STOP"]
  | .showState n st => [digits n, showStateWord st]
  | .showAbort n c => [digits n, word "ABORT", abortWord c]
  | .showLeg n i => [digits n, word "LEG", digits i]
  | .board b online => [digits b, if online then word "ONLINE" else word "OFFLINE"]
  | .chainCondition c => [conditionWord c]
  | .chainFault f => word "FAULT" :: chainFaultWords f
  | .chainModule m h => [word "MODULE", digits m, healthWord h]
  | .chainMode m => [word "MODE", scanModeWord m]
  | .sysBreak => [word "BREAK"]
  | .sysMode m => [word "MODE", modeWord m]
  | .sysOverflow => [word "OVERFLOW"]
  | .sysEstop c => word "ESTOP" :: stopWords c
  | .sysResumed => [word "RESUMED"]
  | .sysSaved => [word "SAVED"]
  | .sysSaveFailed => [word "SAVE-FAILED"]
  | .sysStoreEmpty => [word "STORE-EMPTY"]
  | .sysStoreBad => [word "STORE-BAD"]
  | .sysInvalid o c => word "INVALID" :: objWords o ++ [checkWord c]
  | .sysStart c => [word "START", match c with
      | .power => word "POWER"
      | .reset => word "RESET"]

/-- A report: !, the class, then words (R157). -/
def Report.text (r : Report) : Text := joinWords (word "!" :: classWord r.class :: r.words)

/-! ## Replies (R153, R157) -/

/-- The words after OK. -/
def OkBody.words : OkBody → List Text
  | .bare => []
  | .mode m => [word "MODE", modeWord m]
  | .setup => [word "SETUP"]
  | .route r st => [word "ROUTE", digits r, routeStateWord st]
  | .routeQueued r => [word "ROUTE", digits r, word "QUEUED"]
  | .trainActive n => [word "TRAIN", digits n, word "ACTIVE"]
  | .trainSpeed n v => [word "TRAIN", digits n, word "SPEED", digits v]
  | .trainReleased n => [word "TRAIN", digits n, word "RELEASED"]
  | .trainLink n => [word "TRAIN", digits n, word "LINK"]
  | .trainUnplaced n => [word "TRAIN", digits n, word "UNPLACED"]
  | .trainRunlist n => [word "TRAIN", digits n, word "RUNLIST"]
  | .timebase p => [word "TIMEBASE", digits p]
  | .chanForce c f => [word "CHAN", digits c, word "FORCE", forceWord f]
  | .turnMoving k e dir => [word "TURN", word "MOVING", digits k, endWord e, dirWord dir]
  | .turnAligned k e => [word "TURN", word "ALIGNED", digits k, endWord e]
  | .turnState st => [word "TURN", bridgeStateWord st]
  | .show n st => [word "SHOW", digits n, showStateWord st]
  | .board b l => [word "BOARD", digits b, digits l]
  | .aux a v => [word "AUX", digits a, digits v]
  | .tell cs => word "TELL" :: cs.map classWord
  | .chainReset => [word "CHAIN", word "RESET"]
  | .chainMode m => [word "CHAIN", word "MODE", scanModeWord m]
  | .estop => [word "ESTOP"]
  | .resume => [word "RESUME"]
  | .save => [word "SAVE"]
  | .reset => [word "RESET"]
  | .baud n => [word "BAUD", digits n]
  | b => getWords b

/-- A reply: OK, or NO and a code, then words (R157). -/
def Reply.text : Reply → Text
  | .ok b => joinWords (word "OK" :: b.words)
  | .no c o => joinWords (word "NO" :: codeWord c :: (o.map objWords).getD [])
  | .notValid o c => joinWords (word "NO" :: codeWord .invalid :: objWords o ++ [checkWord c])

/-! ## The line on TXD (R149, R155) -/

/-- The characters of a line sent, before its end. -/
def TxLine.text : TxLine → Text
  | .owedFull => Reply.text (.no .full none)
  | .reply r => r.text
  | .report r => r.text

/-- The bytes of a line sent: its characters, then CR and LF (R149, R157). -/
def TxLine.bytes (t : TxLine) : List Byte := (t.text.map fun c => BitVec.ofNat 8 c.toNat) ++ [13, 10]

/-- What the part sends on TXD: the bytes of the line it has begun, or nothing, TXD idling high (R155). -/
def HostLink.txd (h : HostLink) : List Byte :=
  match h.tx with
  | some t => t.bytes
  | none => []

end Sys2Proof.Machine
end

