-- ==== Sys2Proof/Machine/Drive.lean ====
section
/-! DEFINITION. Section drive and the speed governor (chapter 7). -/

namespace Sys2Proof.Machine

open Sys2Proof

/-! ## Channels (R108, R109) -/

/-- Channel `c`. -/
def State.channel (s : State) (c : Nat) : Channel := (s.dg.channels[c]?).getD {}

/-- Changes every channel, its number given. -/
def mapChannels (f : Nat → Channel → Channel) (s : State) : State :=
  { s with dg := { s.dg with channels := s.dg.channels.zipIdx.map fun e => f e.2 e.1 } }

/-- The sections of channel `c`, ascending (R108). -/
def State.sectionsOn (s : State) (c : Nat) : List Nat :=
  (s.sections.filter fun x => x.2.cfg.channel == some c).map fun x => x.1

/-- The output state of a channel with force `f` (R109). -/
def State.outputFor (s : State) (f : Force) : OutputState :=
  if s.stopped then .float
  else if f = .float then .float
  else if s.mode = .config ∧ f = .none then .float
  else .driven

/-- A change of stop, mode or force, from `before`, acts on the output states: FLOAT at once, DRIVEN from the
next counter zero with shadow compare 0 (R109). A forced channel too has its shadow put to 0, and loads what its force
gives at that zero (the model's choice, log 66). -/
def reviseOutput (before s : State) (old ch : Channel) : Channel :=
  match before.outputFor old.force, s.outputFor ch.force with
  | _, .float => { ch with output := .float }
  | .float, .driven => { ch with shadow := 0 }
  | .driven, .driven => ch

/-- Every channel's output state follows a change of stop, mode or force (R109). -/
def reviseOutputs (before s : State) : State :=
  mapChannels (fun c ch => reviseOutput before s (before.channel c) ch) s

/-! ## Counter zero (R107, R110, R112) -/

/-- The governor tick divisor K (R112). -/
def tickDivisor (p : Nat) : Nat := max 1 (80000 / p)

/-- A compare rescaled from one period to another (R107). -/
def rescale (old new c : Nat) : Nat := c * new / old

/-- The period load (R107). -/
def loadPeriod (s : State) : State :=
  if s.dg.shadow = s.dg.period then s
  else
    let s1 := mapChannels (fun _ ch => { ch with
      compare := rescale s.dg.period s.dg.shadow ch.compare
      shadow := rescale s.dg.period s.dg.shadow ch.shadow }) s
    { s1 with dg := { s1.dg with period := s.dg.shadow } }

/-- What a channel loads at a counter zero (R110), also at the zero at which it returns to drive (the model's choice
for a force of FULL-POS or FULL-NEG, log 66). -/
def loadChannel (p : Nat) (ch : Channel) : Channel :=
  match ch.force with
  | .none | .float => { ch with compare := ch.shadow, polarity := ch.shadowPolarity }
  | .off => { ch with compare := 0 }
  | .fullPos => { ch with compare := p, polarity := .pos }
  | .fullNeg => { ch with compare := p, polarity := .neg }

/-- The time-base returns to 0 (R106, R107, R109, R110, R112). -/
def counterZero (s : State) : State :=
  let moment := s.dg.zeroAt + s.dg.period
  let s1 := loadPeriod (s.reach moment)
  let s2 := mapChannels (fun _ ch => loadChannel s1.dg.period { ch with output := s1.outputFor ch.force }) s1
  { s2 with dg := { s2.dg with zeroAt := moment, divider := s2.dg.divider + 1 } }

/-- A leg of a channel at one count of the time-base: high impedance, on, or low (R110). -/
inductive LegLevel where
  | highZ | on | low
deriving DecidableEq, Repr

/-- Legs A and B of a channel when the counter stands at `count` (R109, R110). -/
def Channel.legs (ch : Channel) (count : Nat) : LegLevel × LegLevel :=
  match ch.output with
  | .float => (.highZ, .highZ)
  | .driven =>
    let driven : LegLevel := if count < ch.compare then .on else .low
    match ch.polarity with
    | .pos => (driven, .low)
    | .neg => (.low, driven)

/-- The counter of the time-base, from the clock (R106). -/
def State.counter (s : State) : Nat := (s.now - s.dg.zeroAt) % s.dg.period

/-! ## The target step (R113, R114) -/

/-- The look-ahead cap of a train (R114). -/
def State.lookAhead (s : State) (t : TrainRec) : Option Nat :=
  match t.lead with
  | none => none
  | some e =>
    match s.signalAt e.sec e.exit with
    | some g => (s.signal? g).bind fun q => s.capOf q.aspect
    | none =>
      match s.across e.sec e.exit with
      | none => none
      | some (x, f) =>
        match (s.far x f).bind (s.signalAt x) with
        | none => none
        | some g =>
          match s.signal? g with
          | none => none
          | some q => if q.aspect = .stop then some s.ix.cautionCap else none

/-- Section `x` is the BRIDGE section or the section of a DEFINED road (R113). -/
def State.nearBridge (s : State) (x : Nat) : Bool :=
  (match s.section? x with
    | some r => r.cfg.kind == .bridge
    | none => false) || s.tu.roads.any fun k => k.2.sec == some x

/-- The speed limit of section `x`. -/
def State.limitOf (s : State) (x : Nat) : Option Nat := (s.section? x).map fun r => r.cfg.speedLimit

/-- The terms of the target step that take part (R113). -/
def State.targetTerms (s : State) (t : TrainRec) : List Nat :=
  [t.demand] ++ t.list.filterMap (fun e => s.limitOf e.sec) ++ t.cap.toList ++ (s.lookAhead t).toList
    ++ (if t.list.any fun e => s.nearBridge e.sec then [s.dg.bridgeCap] else [])
    ++ (if t.held then [0] else []) ++ (if s.healthy then [] else [0])

/-- The target step: the least term, never more than 127 (R113). -/
def State.target (s : State) (t : TrainRec) : Nat := (s.targetTerms t).foldl min 127

/-! ## Ramp, duty, polarity (R116, R118, R119) -/

/-- The braking rate that applies to train `n` (R116). -/
def State.brakeRate (s : State) (n : Nat) (t : TrainRec) : Nat :=
  if t.passedStop ∨ t.driveConflict ∨ s.dg.replacement.contains n then t.cfg.emergency else t.cfg.brake

/-- One tick of the ramp from `c` toward `goal` (R116). -/
def ramp (accel rate c goal : Nat) : Nat :=
  if c < goal then min (c + accel) goal else if goal < c then max (c - rate) goal else c

/-- The duty at current step `c` (R118). -/
def TrainCfg.duty (t : TrainCfg) (c : Nat) : Nat := if c = 0 then 0 else t.v0 + (t.vmax - t.v0) * c / 2032

/-- The compare of a duty at period `p` (R118). -/
def compareOf (duty p : Nat) : Nat := (duty * p + 500) / 1000

/-- The required polarity of an exit end on a section of sense `se` (R119). -/
def polarityFor (e : EndName) (se : Sense) : Polarity :=
  match e.polarityB, se with
  | false, .plus => .pos
  | false, .minus => .neg
  | true, .plus => .neg
  | true, .minus => .pos

/-- The polarities a train requires on channel `c`, each once (R119). -/
def State.polaritiesOn (s : State) (t : TrainRec) (c : Nat) : List Polarity :=
  (t.list.filterMap fun e =>
    match s.section? e.sec with
    | none => none
    | some r => if r.cfg.channel = some c then some (polarityFor e.exit r.cfg.sense) else none).eraseDups

/-! ## Settling a channel (R120, R122) -/

/-- The ACTIVE trains on channel `c`, with compare and polarities (R120). -/
def State.trainsOn (s : State) (c : Nat) : List TickTrain :=
  s.tt.trains.filterMap fun e =>
    if e.2.state = .active then
      match s.polaritiesOn e.2 c with
      | [] => none
      | ps => some { train := e.1, compare := compareOf (e.2.cfg.duty e.2.current) s.dg.period, polarities := ps }
    else none

/-- The lowest compare of the trains on a channel. -/
def lowestCompare : List TickTrain → Nat
  | [] => 0
  | [t] => t.compare
  | t :: rest => min t.compare (lowestCompare rest)

/-- The polarities the trains on a channel require between them. -/
def polaritiesOf (ts : List TickTrain) : List Polarity := (ts.flatMap fun t => t.polarities).eraseDups

/-- Resolved compare, polarity and conflict of a channel with shadow polarity `old` (R120). -/
def resolveChannel (ts : List TickTrain) (old : Polarity) : Nat × Polarity × Bool :=
  match polaritiesOf ts with
  | [] => (0, old, false)
  | [p] => (lowestCompare ts, p, false)
  | _ => (0, old, true)

/-- Channel `c` is the drive channel of the stop section of a signal whose stop cut is ON (R122). -/
def State.stopCutOn (s : State) (c : Nat) : Bool :=
  s.ix.signals.any fun g => g.2.stopCut && (match g.2.cfg.stopSection.bind s.section? with
    | some r => r.cfg.channel == some c
    | none => false)

/-- Channel `c` is the drive channel of the BRIDGE section, and the bridge steps (R122). -/
def State.bridgeCutOn (s : State) (c : Nat) : Bool :=
  s.tu.ten && s.sections.any fun x => x.2.cfg.kind == .bridge && x.2.cfg.channel == some c

/-- A channel settled at a tick (R120, R121, R122). -/
def State.settleChannel (s : State) (c : Nat) (ch : Channel) : Channel :=
  let ts := s.trainsOn c
  let r := resolveChannel ts ch.shadowPolarity
  let cut := s.stopCutOn c
  let bridge := s.bridgeCutOn c
  { ch with
    shadow := if cut || bridge then 0 else r.1
    shadowPolarity := r.2.1, conflict := r.2.2, lastTrains := ts, lastStopCut := cut, lastBridgeCut := bridge }

/-! ## The tick (R112 to R122) -/

/-- A train's lead stands at a signal whose fallen mark is set and which shows STOP (R115). -/
def State.atFallen (s : State) (t : TrainRec) : Bool :=
  match t.lead with
  | none => false
  | some e =>
    s.ix.signals.any fun g =>
      g.2.cfg.location == some (e.sec, e.exit) && s.dg.fallen.contains g.1 && g.2.aspect == .stop

/-- The replacement flags are set, and every fallen mark cleared (R115). -/
def setReplacements (s : State) : State :=
  let ns := s.trainsWith fun t => t.state == .active && s.atFallen t
  { s with dg := { s.dg with replacement := ns.foldl (fun l n => setInsert n l) s.dg.replacement, fallen := [] } }

/-- The current step of train `n` after the ramp (R116). -/
def State.nextStep (s : State) (n : Nat) (t : TrainRec) : Nat :=
  ramp t.cfg.accel (s.brakeRate n t) t.current (16 * s.target t)

/-- The trains whose step changes to or from 0 between two states, ascending (R117). -/
def stepChanges (before s : State) : List Nat :=
  (before.tt.trains.filter fun e =>
    e.2.state == .active && ((e.2.current == 0) != (s.currentOf e.1 == 0))).map fun e => e.1

/-- Every ACTIVE train ramps; flags of trains at or below their target are cleared (R115, R116). -/
def rampTrains (s : State) : State :=
  let done := s.trainsWith fun _ => true
  let still := done.filter fun n =>
    match s.train? n with
    | some t => t.state == .active && decide (16 * s.target t < s.nextStep n t)
    | none => false
  { s with
    tt := { s.tt with trains := s.tt.trains.map fun e =>
      if e.2.state = .active then (e.1, { e.2 with current := s.nextStep e.1 e.2 }) else e }
    dg := { s.dg with replacement := s.dg.replacement.filter still.contains } }

/-- The channels in conflict that train `n` is on, ascending. -/
def State.conflictsOf (s : State) (n : Nat) : List Nat :=
  (s.dg.channels.zipIdx.filter fun e => e.1.conflict && e.1.lastTrains.any fun t => t.train == n).map fun e => e.2

/-- Channel conflict of train `n` is judged (R121). -/
def judgeConflict (n : Nat) (s : State) : State :=
  match s.train? n with
  | none => s
  | some t =>
    match s.conflictsOf n with
    | c :: _ =>
      if t.channelConflict then s
      else (changeHolds n (fun t => { t with channelConflict := true }) s).report (.trainConflict n c)
    | [] =>
      if t.channelConflict then
        (changeHolds n (fun t => { t with channelConflict := false }) s).report (.trainConflictClear n)
      else s

/-- A tick in RUN with emergency stop inactive (R112). -/
def runTick (s : State) : State :=
  let s1 := setReplacements s
  let s2 := rampTrains s1
  let s3 := mapChannels (fun c ch => s2.settleChannel c ch) s2
  let s4 := s3.handAll ((stepChanges s s3).map Notice.stepChange)
  foldState judgeConflict (s4.trainsWith fun t => t.state == .active) s4

/-- Every ACTIVE train's current step becomes 0 (R123). -/
def stopTrains (s : State) : State :=
  { s with tt := { s.tt with trains := Table.mapVals s.tt.trains fun t =>
      if t.state = .active then { t with current := 0 } else t } }

/-- A tick while emergency stop is active (R123). No stop cut and no bridge cut is judged at it (log 42), and the
conflict field of a channel is left as it stands (the model's choice, log 62). -/
def stoppedTick (s : State) : State :=
  let s1 := stopTrains s
  mapChannels (fun c ch => { ch with
    shadow := 0, lastTrains := s1.trainsOn c, lastStopCut := false, lastBridgeCut := false }) s1

/-- A tick in CONFIG writes no shadow and no train (R112); no train was on a channel at it, and nothing cut one
(R108). -/
def configTick (s : State) : State :=
  mapChannels (fun _ ch => { ch with lastTrains := [], lastStopCut := false, lastBridgeCut := false }) s

/-- The governor tick: it takes place when the divider has reached K (R112). In CONFIG, R112 holds before R123
(log 43). -/
def governorTick (s : State) : State :=
  if s.dg.divider < tickDivisor s.dg.period then s
  else
    let s1 := { s with dg := { s.dg with divider := 0 } }
    if s.mode = .config then configTick s1
    else if s.stopped then stoppedTick s1
    else runTick s1

/-- What DG does when emergency stop becomes active, from the state before it (R123). -/
def driveStop (before s : State) : State :=
  let s1 := stopTrains (reviseOutputs before s)
  let s2 := { s1 with dg := { s1.dg with replacement := [], fallen := [] } }
  s2.handAll ((stepChanges s s2).map Notice.stepChange)

/-! ## TIMEBASE (R106) and CHAN FORCE (R111) -/

/-- TIMEBASE P (R106). -/
def cmdTimebase (p : Nat) (s : State) : State × Reply :=
  if p < 200 ∨ 65535 < p then (s, .no .range none)
  else ({ s with dg := { s.dg with shadow := p } }, .ok (.timebase p))

/-- Writes the force of channel `c`. -/
def setForce (c : Nat) (f : Force) (s : State) : State :=
  mapChannels (fun i ch => if i = c then { ch with force := f } else ch) s

/-- CHAN c FORCE f; `f` is none for a word that is no force word (R111). -/
def cmdChanForce (c : Nat) (f : Option Force) (s : State) : State × Reply :=
  if Config.maxChannels ≤ c then (s, .no .range none)
  else
    match f with
    | none => (s, .no .badForm none)
    | some f =>
      if s.mode = .run ∧ s.sectionsOn c ≠ [] then (s, .no .state (some (.channel c)))
      else if s.stopped ∧ (f = .fullPos ∨ f = .fullNeg) then (s, .no .stopped none)
      else (reviseOutputs s (setForce c f s), .ok (.chanForce c f))

end Sys2Proof.Machine
end

