-- ==== Sys2Proof/Machine/Cascade.lean ====
section
/-! DEFINITION. How an arrival is worked to its end: every hand-over is taken by the blocks it concerns, and
the aspects are settled (R82, R83; logs 4 to 6). -/

namespace Sys2Proof.Machine

open Sys2Proof

/-- The chain condition has changed (R35): the interlocking re-examines its queue and the point unit considers a
pulse when it has become HEALTHY, in R35's order of naming them (the model's choice, log 5); the tracker freezes when
it has not. -/
def conditionChanged (s : State) : State :=
  if s.healthy then considerPulse (reexamine s) else freezeTracking s

/-- Emergency stop sets every train's demand to 0 (R158). -/
def trackerStop (s : State) : State :=
  { s with tt := { s.tt with trains := Table.mapVals s.tt.trains fun t => { t with demand := 0 } } }

/-- One hand-over is taken by the blocks it concerns, in the order the rules name them (log 5). -/
def handle (n : Notice) (s : State) : State :=
  match n with
  | .occupancy x true => (refreshSignals s).hand (.trackOccupied x s.aspects)
  | .occupancy x false => (ixClear x (refreshSignals s)).hand (.trackClear x)
  | .trackOccupied x before => trackOccupied x before s
  | .trackClear x => trackClear x s
  | .pointChange p e => ixPoint p e s
  | .bridgeChange => ixBridge s
  | .moveEnded (.route r) _ => ixMoveEnded r s
  | .moveEnded (.show n) out => vuMoveEnded n out s
  | .moveEnded _ _ => s
  | .reexamine => reexamine s
  | .routeChange r st => vuRouteChange r st (ttRouteChange r st s)
  | .routeFail r => vuRouteFail r s
  | .requestStarted _ r => ttRequestStarted r s
  | .requestDropped (.show n) r cause => vuRequestDropped n r cause (ttRequestDropped r s)
  | .requestDropped _ r _ => ttRequestDropped r s
  | .placement n => placement n s
  | .holdsChange n => judgeStart (placement n s)
  | .trainChange n e => vuTrainChange n e s
  | .listChange n => judgeArrivals n s
  | .passedStop n => vuPassedStop n s
  | .driverLink n => judgeStart (placement n s)
  | .stepChange n => vuStepChange n (foldState judgeDwell (s.routesOf n) (ttStepChange n s))
  | .judgeStart => judgeStart s
  | .dwellOver n => dwellOver n s
  | .conditionChange => conditionChanged s
  | .resumption => resumption s
  | .stopTracker => trackerStop s
  | .stopPoints => pointsStop s
  | .stopRoutes => routesStop s
  | .stopTurntable => turntableStop s
  | .stopShows => showsStop s

/-- The oldest hand-over is taken, and what it hands over comes before the rest (log 4). -/
def settleStep (s : State) : State :=
  match s.agenda with
  | [] => s
  | n :: rest =>
    let s1 := handle n { s with agenda := [] }
    { s1 with agenda := s1.agenda ++ rest }

/-- Takes hand-overs until none is left. The first argument bounds them. -/
def settleFrom : Nat → State → State
  | 0, s => s
  | k + 1, s => if s.agenda = [] then s else settleFrom k (settleStep s)

/-- Takes every hand-over that waits (log 4). -/
def settle (s : State) : State := settleFrom Config.cascadeFuel s

/-- An arrival `f`: its action, every hand-over that follows, then the aspects (R82, R83; log 6). -/
def arrival (f : State → State) (s : State) : State :=
  settleSignals s.aspects (settle (f s))

/-- A command of the host as one arrival: the state after it, and its reply. -/
def arrivalReply (f : State → State × Reply) (s : State) : State × Reply :=
  let out := f s
  (settleSignals s.aspects (settle out.1), out.2)

/-! ## Emergency stop (R158, R159) -/

/-- A source becomes active: while the stop is INACTIVE it becomes ACTIVE, and every block acts (R158). The trains'
changes of step are handed over in ascending order (the model's choice, log 56). -/
def activateStop (cause : StopCause) (s : State) : State :=
  if s.ss.stop then s
  else
    let s1 := { s with ss := { s.ss with stop := true } }.report (.sysEstop cause)
    (driveStop s s1).handAll [.stopTracker, .stopPoints, .stopRoutes, .stopTurntable, .stopShows]

end Sys2Proof.Machine
end

