-- ==== Sys2Proof/Machine/Chain.lean ====
section
/-! DEFINITION. The field chain (chapter 2): images, the sequencer, enumeration, the echo check,
qualification, settling and recovery. -/

namespace Sys2Proof

/-- A sense role (R22). -/
def Role.isSense : Role → Bool
  | .detect _ | .pointDet _ _ | .button _ | .stopButton | .auxIn _ => true
  | _ => false

/-- A drive role (R22). -/
def Role.isDrive : Role → Bool
  | .coil _ _ | .signalLamp _ _ | .mimic _ | .auxOut _ => true
  | _ => false

/-- The level opposite to a level. -/
def Level.other : Level → Level
  | .high => .low
  | .low => .high

/-- The cell that carries a level: an on cell is sent high (R157). -/
def Level.cell : Level → Bool
  | .high => true
  | .low => false

end Sys2Proof

namespace Sys2Proof.Machine

open Sys2Proof

/-! ## Updates of the chain -/

/-- Changes the chain's fields. -/
def State.setChain (s : State) (f : Chain → Chain) : State := { s with fc := f s.fc }

/-- Changes the live fields of the terminal at place `k`. -/
def State.setLive (s : State) (k : Nat) (f : TerminalLive → TerminalLive) : State :=
  s.setChain fun c => { c with live := Table.put c.live k (f ((Table.find c.live k).getD {})) }

/-- Changes module `m`. -/
def State.setModule (s : State) (m : Nat) (f : ModuleRec → ModuleRec) : State :=
  s.setChain fun c => { c with modules := Table.update c.modules m f }

/-- Module `m` is HEALTHY. -/
def State.moduleHealthy (s : State) (m : Nat) : Bool :=
  match Table.find s.fc.modules m with
  | some r => r.health == .healthy
  | none => false

/-- A terminal is sensed: a sense role, or OFF with direction SENSE (R24). -/
def TerminalCfg.sensed (c : TerminalCfg) : Bool :=
  c.role.isSense || (c.role == .off && c.direction == .sense)

/-- The sixteen terminals of module `m`, as places in chain order. -/
def moduleTerminals (m : Nat) : List Nat :=
  (List.range Config.terminalsPerModule).map fun t => m * Config.terminalsPerModule + t

/-- The terminals with a sense role, in chain order (R22). -/
def State.inputs (s : State) : List Nat :=
  (s.fc.terminals.filter fun e => e.2.role.isSense).map fun e => e.1

/-! ## Output values and images (R24, R25) -/

/-- The coil value of point `p` toward `pos`: ON for the pulse in progress until OFF is supplied (R46). -/
def State.coilValue (s : State) (p : Nat) (pos : PointPos) : OutValue :=
  match s.pu.supply with
  | .pulsing q => onOff (q.point == p && q.pos == pos && q.offAt.isNone)
  | _ => .off

/-- The coil terminal of a position. -/
def PointCfg.coil (c : PointCfg) : PointPos → Option TermId
  | .n => c.coilN
  | .r => c.coilR

/-- The output value of terminal `t` with role `r` (R25). -/
def State.outputValue (s : State) (t : TermId) (r : Role) : OutValue :=
  let test := s.fc.modeInForce == .lampTest
  match r with
  | .coil p pos =>
    match s.point? p with
    | some q => if q.cfg.coil pos = some t then s.coilValue p pos else .off
    | none => .off
  | .signalLamp g lamp =>
    if test then .on
    else match s.signal? g with
      | some q => if q.cfg.lamps.contains lamp ∧ q.cfg.lampTerminal lamp = some t
          then lampValue q.cfg q.aspect lamp else .off
      | none => .off
  | .mimic src =>
    if test then .on
    else match src with
      | .showLamp n =>
        match s.show? n with
        | some w => if w.cfg.lamp = some t then s.mimicValue src else .off
        | none => .off
      | _ => s.mimicValue src
  | .auxOut a => onOff ((s.hl.auxOut[a]?).getD false)
  | _ => .off

/-- The value cell of a driven terminal (R24, R25). -/
def State.valueCell (s : State) (c : TerminalCfg) (v : OutValue) : Bool :=
  let lit := match v with
    | .on => true
    | .off => false
    | .flash => s.fc.flashLit
  (if lit then c.active else c.active.other).cell

/-- The three cells of a terminal: value, pull and enable (R24). -/
def State.cellsOf (s : State) (k : Nat) (healthy : Bool) : Bool × Bool × Bool :=
  let t := termOfKey k
  let c := s.terminal t
  if c.role.isDrive then (s.valueCell c (s.outputValue t c.role), c.pullUp, healthy)
  else (c.active.other.cell, c.pullUp, c.role == .off && c.direction == .drive && healthy)

/-- The image of one module. -/
def State.moduleImage (s : State) (m : Nat) : ModuleImage :=
  (moduleTerminals m).map fun k => s.cellsOf k (s.moduleHealthy m)

/-- The output image of the layout: modules 0 to L − 1 (R24). -/
def State.composeImage (s : State) : List ModuleImage := (List.range s.chainLength).map s.moduleImage

/-- The cells of a module image, position 0 to 47 (R157). -/
def ModuleImage.cells (m : ModuleImage) : List Bool := m.flatMap fun c => [c.1, c.2.1, c.2.2]

/-- The cells sent on COUT in a scan: the tail, then module L − 1 position 47 down to module 0 position 0
(R157). -/
def scanCells (image : List ModuleImage) : List Bool :=
  Config.tailPattern ++ (image.flatMap ModuleImage.cells).reverse

/-- Cell `i` sent on COUT in ENUMERATE: the tail marker, then off cells (R27, R157). -/
def enumerationCell (i : Nat) : Bool := (Config.tailPattern[i]?).getD false

/-- The 48 cells sent while word `k` of an enumeration comes back. -/
def enumerationCells (k : Nat) : List Bool := (List.range 48).map fun i => enumerationCell (48 * k + i)

/-- The cells the part sends on COUT: those of the exchange in SHIFT, those of the present word in ENUMERATE
(R27, R28, R157). -/
def Chain.cout (c : Chain) : List Bool :=
  match c.seq with
  | .shift => scanCells c.image
  | .enumerate => enumerationCells c.enumCount
  | _ => []

/-! ## Scans (R28, R30) -/

/-- Counts of the clock in one cell at a chain clock in tenths of a kHz (R28). -/
def cellTime (clock : Nat) : Nat := 40000 / clock

/-- Entry to CAPTURE: the scan timer starts, and the settings take effect (R28, R30). -/
def startCapture (s : State) : State :=
  s.setChain fun c => { c with
    seq := .capture, seqDue := none, clockInForce := c.clock, periodInForce := c.period
    scanTimer := some (s.now + ms c.period), scanExpired := false }

/-- The scan timer expires (R28). -/
def scanExpiry (s : State) : State :=
  match s.fc.scanTimer with
  | some due =>
    let s1 := (s.reach due).setChain fun c => { c with scanTimer := none, scanExpired := true }
    if s1.fc.seq = .idle then startCapture s1 else s1
  | none => if s.fc.seq = .idle ∧ s.fc.scanExpired then startCapture s else s

/-- The capture strobe completes: the image is composed, and SHIFT begins (R24, R28). -/
def captureDone (s : State) : State :=
  if s.fc.seq = .capture then
    s.setChain fun c => { c with
      seq := .shift, composed := c.composed + 1, image := s.composeImage
      seqDue := some (s.now + (48 * s.chainLength + 16) * cellTime c.clockInForce) }
  else s

/-- The scan mode changes at an UPDATE whose image was composed after the request (R38). -/
def changeScanMode (s : State) : State :=
  if s.fc.requestedAt < s.fc.composed ∧ s.fc.modeInForce ≠ s.fc.modeRequested then
    (s.setChain fun c => { c with modeInForce := c.modeRequested }).report (.chainMode s.fc.modeRequested)
  else s

/-- The update strobe completes (R28, R38). -/
def updateComplete (s : State) : State :=
  if s.fc.seq = .update then
    let s1 := s.setChain fun c => { c with latched := c.image }
    let s2 := changeScanMode (arrival (pointsUpdate s1.fc.composed) s1)
    if s2.fc.scanExpired then startCapture s2 else s2.setChain fun c => { c with seq := .idle, seqDue := none }
  else s

/-- The flash phase changes (R25). -/
def flashToggle (s : State) : State :=
  (s.reach s.fc.flashDue).setChain fun c => { c with flashLit := !c.flashLit, flashDue := c.flashDue + ms 500 }

/-! ## Handing values to owners (R32, R34) -/

/-- A terminal named by a show's button field. -/
def State.isButton (s : State) (n : Nat) (t : TermId) : Bool :=
  match s.show? n with
  | some w => w.cfg.button == some t
  | none => false

/-- An auxiliary input takes a value; a value that differs from the one kept is reported (R156). -/
def takeAux (a : Nat) (v : Bool) (s : State) : State :=
  if (s.hl.auxIn[a]?).getD false = v then s
  else { s with hl := { s.hl with auxIn := s.hl.auxIn.set a v } }.report (.aux a v)

/-- The owner of terminal `t` with role `r` takes the value handed: true when active, none for the
unqualified or fault value (R32, R34). `was` is the value it held. -/
def ownerTakes (t : TermId) (r : Role) (was v : Option Bool) (s : State) : State :=
  match r with
  | .detect x => refreshSection x s
  | .pointDet p _ => refreshPoint p s
  | .button n => if s.isButton n t ∧ was ≠ some true ∧ v = some true then pressShow n s else s
  | .stopButton => if v = some false then s else activateStop (.button t) s
  | .auxIn a => match v with
    | some b => takeAux a b s
    | none => s
  | _ => s

/-- The value of the terminal at place `k` is handed to its owner, as an arrival of its own. -/
def handValue (k : Nat) (v : Option Bool) (s : State) : State :=
  let t := termOfKey k
  let was := (s.termLive t).handed
  let s1 := s.setLive k fun l => { l with handed := v }
  arrival (ownerTakes t (s.terminal t).role was v) s1

/-- The value an owner holds while none has qualified (R34). -/
def State.unqualifiedValue (s : State) : Role → Bool
  | .detect _ | .stopButton => true
  | .auxIn a => (s.hl.auxIn[a]?).getD false
  | _ => false

/-- The value the owner of a terminal holds. -/
def State.heldValue (s : State) (k : Nat) : Bool :=
  let t := termOfKey k
  ((s.termLive t).handed).getD (s.unqualifiedValue (s.terminal t).role)

/-- An input becomes unqualified, or takes its fault value: last sample and clear timer go with it (R26, R31). -/
def unqualify (k : Nat) (s : State) : State :=
  handValue k none (s.setLive k fun l => { handed := l.handed })

/-- The chain condition changes, with what is reported of it, and is handed to its readers (R35). -/
def changeCondition (c : Condition) (reps : List Report) (s : State) : State :=
  arrival (fun s =>
    (foldState (fun r s => s.report r) reps (s.setChain fun f => { f with condition := c })).hand .conditionChange) s

/-! ## Chain reset and HALTED (R26, R29) -/

/-- Entry to CH-RESET (R26): the inputs are handed over before the condition becomes DOWN (log 15), in chain order (the
model's choice, log 48). -/
def chainReset (s : State) : State :=
  let was := s.fc.condition
  let s1 := s.setChain fun c => { c with
    modules := Table.mapVals c.modules fun m => { type := m.type }
    seq := .chReset, clockInForce := c.clock, seqDue := some (s.now + 8 * cellTime c.clock)
    scanTimer := none, scanExpired := false, retryTimer := none, latched := [] }
  let s2 := s1.setChain fun c => { c with live := Table.mapVals c.live fun l => { handed := l.handed } }
  let s3 := foldState (fun k s => handValue k none s) s2.inputs s2
  let s4 := if was = .down then s3 else changeCondition .down [.chainCondition .down] s3
  arrival coilsCleared s4

/-- The sequencer enters HALTED with fault `f` (R29); the inputs take their fault values in chain order (the model's
choice, log 48). The fault is remembered as the last reported also when class CHAIN is disabled and its report is not
queued (the model's choice, log 68). -/
def enterHalted (f : ChainFault) (s : State) : State :=
  let reps := if s.fc.lastFault = some f then [] else [Report.chainFault f]
  let s1 := s.setChain fun c => { c with
    lastFault := some f, seq := .halted, seqDue := none, scanTimer := none, scanExpired := false
    latched := [], retryTimer := some (s.now + ms 1000) }
  let s2 := arrival coilsCleared (changeCondition .down reps s1)
  foldState (fun k s => handValue k none s) s2.inputs s2

/-- The retry timer expires (R29, R26). -/
def retryExpiry (s : State) : State :=
  if s.fc.seq = .halted ∧ s.fc.retryTimer.isSome then chainReset (s.expire s.fc.retryTimer) else s

/-- CHAIN RESET (R26). -/
def cmdChainReset (s : State) : State × Reply := (chainReset s, .ok .chainReset)

/-- CHAIN MODE m (R37). -/
def cmdChainMode (m : ScanMode) (s : State) : State × Reply :=
  if m = .lampTest ∧ s.mode = .run then (s, .no .mode none)
  else (s.setChain fun c => { c with modeRequested := m, requestedAt := c.composed }, .ok (.chainMode m))

/-! ## Enumeration (R27) -/

/-- The eighth clock of the reset: ENUMERATE begins. -/
def resetEnd (s : State) : State :=
  if s.fc.seq = .chReset then
    (s.expire s.fc.seqDue).setChain fun c => { c with seq := .enumerate, seqDue := none, enumCount := 0, found := 0 }
  else s

/-- What the cells of a word are (R27, R157). -/
inductive EnumWord where
  | identity (t : ModuleType)
  | marker
  | neither
deriving DecidableEq, Repr

/-- Reads a word (R27). -/
def readWord (cells : List Bool) : EnumWord :=
  if cells.take 16 = Config.tailPattern then .marker
  else if cells = Config.identityHead ++ Config.identityType .general then .identity .general
  else if cells = Config.identityHead ++ Config.identityType .detector then .identity .detector
  else if cells = Config.identityHead ++ Config.identityType .driver then .identity .driver
  else .neither

/-- The type of module `m`, if DEFINED. -/
def State.moduleType (s : State) (m : Nat) : Option ModuleType := (Table.find s.fc.modules m).map fun r => r.type

/-- The modules found are 40 already, and the 16 cells that begin the next word are not the marker (R27). -/
def Chain.tooMany (c : Chain) (w : EnumWord) : Bool := decide (Config.maxModules ≤ c.found) && w != .marker

/-- Word `k` faults (R27). -/
def State.wordFaults (s : State) (k : Nat) (w : EnumWord) : Bool :=
  match w with
  | .neither => true
  | .marker => decide (k < s.chainLength)
  | .identity t =>
    if k < s.chainLength then s.moduleType (s.chainLength - 1 - k) != some t else true

/-- The position of a fault at word `k` (R27). -/
def faultPosition (l k : Nat) : Nat := if k < l then l - 1 - k else l

/-- The enumeration has matched (R27). -/
def enumerationMatched (s : State) : State :=
  changeCondition .settling [.chainCondition .settling] (s.setChain fun c => { c with
    seq := .idle, seqDue := none, scanTimer := none, scanExpired := true, lastFault := none })

/-- A word has returned in ENUMERATE (R27). -/
def enumerationWord (cells : List Bool) (s : State) : State :=
  if s.fc.seq = .enumerate then
    let k := s.fc.enumCount
    let w := readWord cells
    let s1 := match w with
      | .identity _ => if s.fc.tooMany w then s else s.setChain fun c => { c with found := c.found + 1 }
      | _ => s
    if s.fc.tooMany w || s.wordFaults k w then enterHalted (.enum (faultPosition s.chainLength k)) s1
    else
      match w with
      | .identity _ => s1.setChain fun c => { c with enumCount := c.enumCount + 1 }
      | _ => enumerationMatched s1
  else s

/-! ## The echo check (R31) -/

/-- The cells returned of module `m`, position 0 to 47, in a chain of `l` modules (R157). -/
def returnedCells (l m : Nat) (cells : List Bool) : List Bool := ((cells.drop ((l - 1 - m) * 48)).take 48).reverse

/-- The pull and enable cells among a module's cells. -/
def pullEnable : List Bool → List (Bool × Bool)
  | _ :: p :: e :: rest => (p, e) :: pullEnable rest
  | _ => []

/-- The reference of module `m`: what it was sent in the image latched last, or all off (R31). -/
def State.echoReference (s : State) (m : Nat) : List (Bool × Bool) :=
  match s.fc.latched[m]? with
  | some i => i.map fun c => (c.2.1, c.2.2)
  | none => List.replicate Config.terminalsPerModule (false, false)

/-- The inputs of module `m`, in chain order. -/
def State.inputsOf (s : State) (m : Nat) : List Nat :=
  s.inputs.filter fun k => k / Config.terminalsPerModule == m

/-- Module `m` becomes FAULTY (R31): every terminal of it stops being qualified; its inputs are handed their fault values
in chain order (the model's choice, log 48). -/
def moduleFaulty (m : Nat) (s : State) : State :=
  let s1 := (s.setModule m fun r => { type := r.type, health := .faulty }).report (.chainModule m .faulty)
  let s2 := foldState unqualify (s1.inputsOf m) s1
  s2.setChain fun c => { c with live := c.live.map fun e =>
    if e.1 / Config.terminalsPerModule = m then (e.1, { handed := e.2.handed }) else e }

/-- One module is checked; the flag says that this scan restored it (R31). -/
def echoModule (l : Nat) (cells : List Bool) (m : Nat) (s : State) : State :=
  match Table.find s.fc.modules m with
  | none => s
  | some r =>
    let same := pullEnable (returnedCells l m cells) == s.echoReference m
    match r.health, same with
    | .healthy, true => s.setModule m fun r => { r with mismatches := 0 }
    | .healthy, false =>
      if r.mismatches < 2 then s.setModule m fun r => { r with mismatches := r.mismatches + 1 }
      else moduleFaulty m s
    | .faulty, false => s.setModule m fun r => { r with matched := 0 }
    | .faulty, true =>
      if r.matched < 2 then s.setModule m fun r => { r with matched := r.matched + 1 }
      else (s.setModule m fun r => { type := r.type, health := .healthy }).report (.chainModule m .healthy)

/-! ## Qualification (R32, R33) -/

/-- The clear delay of section `x`; of an ABSENT one the default of the field (log 44). -/
def State.clearDelay (s : State) (x : Nat) : Nat :=
  match s.section? x with
  | some r => r.cfg.clearDelay
  | none => 300

/-- A sample of an input qualified by agreement (R32). -/
def qualifyAgree (l : TerminalLive) (v : Bool) : TerminalLive :=
  if l.lastSample = some v then { l with qualified := some v } else { l with lastSample := some v }

/-- A sample of a detector, at moment `now`, with the clear delay in counts (R33). -/
def qualifyDetector (now delay : Nat) (l : TerminalLive) (v : Bool) : TerminalLive :=
  if v then
    { l with
      lastSample := some true, clearStart := none
      qualified := if l.lastSample = some true then some true else l.qualified }
  else if l.lastSample = some false then
    if l.qualified = some false then l
    else
      let start := l.clearStart.getD now
      if delay ≤ now - start then { l with qualified := some false, clearStart := none }
      else { l with clearStart := some start }
  else { l with lastSample := some false }

/-- The live fields after a sample (R32, R33). -/
def State.qualify (s : State) (c : TerminalCfg) (l : TerminalLive) (v : Bool) : TerminalLive :=
  match c.role with
  | .detect x => qualifyDetector s.now (ms (s.clearDelay x)) l v
  | _ => qualifyAgree l v

/-- The sample of the terminal at place `k` in a chain of `n` modules (R32). -/
def sampleOf (n k : Nat) (c : TerminalCfg) (cells : List Bool) : Bool :=
  let m := k / Config.terminalsPerModule
  let cell := ((returnedCells n m cells)[3 * (k % Config.terminalsPerModule)]?).getD false
  cell == c.active.cell

/-- One sensed terminal is qualified; while the chain is HEALTHY a change is handed to its owner (R28, R32,
R34). -/
def qualifyTerminal (n : Nat) (cells : List Bool) (k : Nat) (s : State) : State :=
  let t := termOfKey k
  let c := s.terminal t
  if c.sensed then
    let l := s.termLive t
    let l' := s.qualify c l (sampleOf n k c cells)
    let s1 := s.setLive k fun _ => l'
    if l'.qualified ≠ l.qualified ∧ s.healthy ∧ c.role.isSense then handValue k l'.qualified s1 else s1
  else s

/-! ## Settling (R36) -/

/-- The role's object is DEFINED, or the role names no record (R36). -/
def State.counted (s : State) : Role → Bool
  | .detect x => (s.section? x).isSome
  | .pointDet p _ => (s.point? p).isSome
  | .button n => (s.show? n).isSome
  | .stopButton | .auxIn _ => true
  | _ => false

/-- The counted inputs, in chain order (R36). -/
def State.countedInputs (s : State) : List Nat :=
  s.inputs.filter fun k =>
    let m := k / Config.terminalsPerModule
    decide (m < s.chainLength) && s.moduleHealthy m && s.counted (s.terminal (termOfKey k)).role

/-- The first counted input that is not qualified (R36). -/
def State.awaited (s : State) : Option Nat :=
  s.countedInputs.find? fun k => (s.termLive (termOfKey k)).qualified.isNone

/-- The qualified value of one input is handed over at the completion of settling, when it differs from the
value its owner holds (R36). -/
def handQualified (k : Nat) (s : State) : State :=
  match (s.termLive (termOfKey k)).qualified with
  | none => s
  | some v => if s.heldValue k = v then s.setLive k fun l => { l with handed := some v } else handValue k (some v) s

/-- Settling is complete (R36, R101). -/
def settlingComplete (s : State) : State :=
  let s1 := changeCondition .healthy [.chainCondition .healthy] s
  let s2 := foldState handQualified s1.inputs s1
  arrival (fun s => s.hand .resumption) s2

/-- The last clock of the exchange (R28, R31, R32, R36). -/
def shiftEnd (cells : List Bool) (s : State) : State :=
  if s.fc.seq = .shift then
    let n := s.chainLength
    let s1 := s.expire s.fc.seqDue
    if cells.drop (48 * n) = Config.tailPattern then
      let sampled := fun (st : State) => (List.range n).filter st.moduleHealthy
      let s2 := foldState (echoModule n cells) (List.range n) s1
      let keep := (sampled s1).filter (sampled s2).contains
      let s3 := foldState (qualifyTerminal n cells) (keep.flatMap moduleTerminals) s2
      let s4 := if s3.fc.condition = .settling ∧ s3.awaited = none then settlingComplete s3 else s3
      s4.setChain fun c => { c with seq := .update, seqDue := none }
    else enterHalted .tail s1
  else s

end Sys2Proof.Machine
end

