-- ==== Sys2Proof/Machine/Validation.lean ====
section
/-! DEFINITION. Validation (section 1.6) and the operating modes (R11 to R14). -/

namespace Sys2Proof.Machine

open Sys2Proof

/-- The object at fault, or none when a check passes. -/
abbrev Failing := Option Obj

/-- Visits the DEFINED records of a table in ascending order; the first that does not pass is named. -/
def visit {α : Type} (t : Table α) (name : Nat → Obj) (passes : Nat → α → Bool) : Failing :=
  (t.find? fun e => !passes e.1 e.2).map fun e => name e.1

/-! ## TOPOLOGY (R15) -/

/-- End `e` of section `x` of configuration `c` passes (R15). -/
def State.endPasses (s : State) (x : Nat) (c : SectionCfg) (e : EndName) : Bool :=
  match c.neighbour e with
  | .buffer | .turntable => true
  | .sectionEnd t f =>
    match s.section? t with
    | none => false
    | some q => t != x && q.cfg.kind.ends.contains f && q.cfg.neighbour f == .sectionEnd x e

/-- A POINT section names a DEFINED point that no lower-numbered POINT section names (R15). -/
def State.pointFieldPasses (s : State) (x : Nat) (c : SectionCfg) : Bool :=
  if c.kind = .point then
    match c.point with
    | none => false
    | some p => (s.point? p).isSome && s.pointSection p == some x
  else true

/-- The first pass. -/
def State.topologySections (s : State) : Failing :=
  visit s.sections .sec fun x r =>
    r.cfg.kind.ends.all (s.endPasses x r.cfg) && s.pointFieldPasses x r.cfg

/-- The second pass. -/
def State.topologyPoints (s : State) : Failing :=
  visit s.pu.points .point fun p _ => (s.pointSection p).isSome

/-- The third pass. -/
def State.topologySignals (s : State) : Failing :=
  visit s.ix.signals .signal fun g r =>
    match r.cfg.location with
    | none => false
    | some (x, e) =>
      match s.section? x with
      | none => false
      | some q => q.cfg.kind.ends.contains e && q.cfg.neighbour e != .buffer && s.signalAt x e == some g

/-- Check 1 (R15). -/
def State.checkTopology (s : State) : Failing :=
  s.topologySections.or (s.topologyPoints.or s.topologySignals)

/-! ## PATH (R16) -/

/-- No number twice. -/
def distinct : List Nat → Bool
  | [] => true
  | a :: rest => !rest.contains a && distinct rest

/-- The stated positions of a route (R16, test 4). -/
def RouteCfg.stated (c : RouteCfg) : Stated := { points := c.points, bridge := c.bridge }

/-- The sections `xs` are reached in order across end `e` of section `y`; the answer is the last section and
the end by which it was entered (R16, tests 4 and 7). -/
def State.follow (s : State) (st : Stated) : Nat → EndName → List Nat → Option (Nat × EndName)
  | _, _, [] => none
  | y, e, x :: rest =>
    match s.resolve st y e with
    | none => none
    | some (z, f) =>
      if z = x then
        match rest with
        | [] => some (x, f)
        | _ :: _ =>
          match s.farEnd st x f with
          | none => none
          | some g => s.follow st x g rest
      else none

/-- Tests 1 to 3 of R16, every section named being DEFINED (section 1.6). -/
def State.pathSections (s : State) (c : RouteCfg) : Bool :=
  (match c.entry with
    | none => false
    | some g => (s.signal? g).isSome)
  && decide (1 ≤ c.path.length) && decide (c.path.length ≤ 12)
  && c.path.all (fun x => (s.section? x).isSome) && distinct c.path
  && c.overlap.all (fun x => (s.section? x).isSome) && distinct (c.path ++ c.overlap)
  && c.approach.all (fun x => (s.section? x).isSome && !(c.path ++ c.overlap).contains x)
  && (c.type != .shunt || c.overlap.isEmpty)

/-- Test 4 of R16: the last path section and its far end, when the path is connected. -/
def State.pathEnd (s : State) (c : RouteCfg) : Option (Nat × EndName) :=
  match s.entryLocation c with
  | none => none
  | some (x, e) =>
    match s.follow c.stated x e c.path with
    | none => none
    | some (y, f) => (s.farEnd c.stated y f).map fun g => (y, g)

/-- The point of a POINT section. -/
def State.sectionPoint (s : State) (x : Nat) : Option Nat :=
  match s.section? x with
  | some r => if r.cfg.kind = .point then r.cfg.point else none
  | none => none

/-- Section `x` is a POINT section. -/
def State.isPoint (s : State) (x : Nat) : Bool :=
  match s.section? x with
  | some r => r.cfg.kind == .point
  | none => false

/-- Test 5 of R16. -/
def State.pathPoints (s : State) (c : RouteCfg) : Bool :=
  let named := c.points.map fun q => q.1
  c.sections.all (fun x => !s.isPoint x || (match s.sectionPoint x with
    | some p => named.contains p
    | none => false))
  && named.all (fun p => match s.pointSection p with
    | some x => c.sections.contains x
    | none => false)
  && distinct named
  && c.flanks.all (fun q => !named.contains q.1 && (s.point? q.1).isSome)

/-- Test 6 of R16. -/
def State.pathBridge (s : State) (c : RouteCfg) : Bool :=
  let crosses := match s.bridgeSection with
    | some b => c.path.contains b
    | none => false
  match c.bridge with
  | none => !crosses
  | some (k, _) => crosses && (Table.find s.tu.roads k).isSome

/-- Test 7 of R16, from the last path section and its far end. -/
def State.pathOverlap (s : State) (c : RouteCfg) (last : Nat × EndName) : Bool :=
  c.overlap.isEmpty || (s.follow c.stated last.1 last.2 c.overlap).isSome

/-- Test 8 of R16. -/
def State.pathExit (s : State) (c : RouteCfg) (last : Nat × EndName) : Bool :=
  match c.exit with
  | .signal g =>
    match s.signal? g with
    | some r => r.cfg.location == some last
    | none => false
  | .buffer =>
    match s.section? last.1 with
    | some r => r.cfg.neighbour last.2 == .buffer
    | none => false
  | .road k =>
    match Table.find s.tu.roads k with
    | some r => r.sec == some last.1
    | none => false

/-- The eight tests of R16. -/
def State.pathPasses (s : State) (c : RouteCfg) : Bool :=
  s.pathSections c && (match s.pathEnd c with
    | none => false
    | some last => s.pathPoints c && s.pathBridge c && s.pathOverlap c last && s.pathExit c last)

/-- Check 2 (R16). -/
def State.checkPath (s : State) : Failing :=
  visit s.ix.routes .route fun _ r => s.pathPasses r.cfg

/-! ## ROLE (R17) -/

/-- A role suits a module type (R17). -/
def roleSuits (r : Role) (m : ModuleType) : Bool :=
  match r, m with
  | .coil _ _, .driver => true
  | .coil _ _, _ => false
  | .signalLamp _ _, .detector | .mimic _, .detector | .auxOut _, .detector => false
  | _, _ => true

/-- The object of a mimic source is DEFINED; the record of a SHOW-LAMP names terminal `t` (R17). -/
def State.mimicPasses (s : State) (t : TermId) : MimicSource → Bool
  | .sectionOcc x | .sectionLock x => (s.section? x).isSome
  | .pointPos p _ => (s.point? p).isSome
  | .signalProceed g => (s.signal? g).isSome
  | .road k => (Table.find s.tu.roads k).isSome
  | .showLamp n =>
    match s.show? n with
    | some w => w.cfg.lamp == some t
    | none => false

/-- The detection terminal of a position. -/
def PointCfg.det (c : PointCfg) : PointPos → Option TermId
  | .n => c.detN
  | .r => c.detR

/-- The object of a role is DEFINED and its record names terminal `t` for the role (R17). -/
def State.objectPasses (s : State) (t : TermId) : Role → Bool
  | .detect x =>
    match s.section? x with
    | some r => r.cfg.detector == some t
    | none => false
  | .pointDet p pos =>
    match s.point? p with
    | some r => r.cfg.det pos == some t
    | none => false
  | .coil p pos =>
    match s.point? p with
    | some r => r.cfg.coil pos == some t
    | none => false
  | .button n => s.isButton n t
  | .signalLamp g lamp =>
    match s.signal? g with
    | some r => r.cfg.lamps.contains lamp && r.cfg.lampTerminal lamp == some t
    | none => false
  | .mimic src => s.mimicPasses t src
  | .stopButton | .auxIn _ | .auxOut _ | .off => true

/-- The terminal at place `k` passes (R17). -/
def State.terminalPasses (s : State) (k : Nat) (c : TerminalCfg) : Bool :=
  let t := termOfKey k
  c.role == .off || (decide (t.module < s.chainLength) && (match s.moduleType t.module with
    | some m => roleSuits c.role m
    | none => false) && s.objectPasses t c.role)

/-- A terminal a record names carries the role `r`, or the record names none (R17). -/
def State.carries (s : State) (t : Option TermId) (r : Role) : Bool :=
  match t with
  | none => true
  | some id => (s.terminal id).role == r

/-- Check 3 (R17). -/
def State.checkRole (s : State) : Failing :=
  (visit s.fc.terminals (fun k => .terminal (termOfKey k)) s.terminalPasses).or <|
  (visit s.sections .sec fun x r => s.carries r.cfg.detector (.detect x)).or <|
  (visit s.pu.points .point fun p r =>
    s.carries r.cfg.coilN (.coil p .n) && s.carries r.cfg.coilR (.coil p .r)
      && s.carries r.cfg.detN (.pointDet p .n) && s.carries r.cfg.detR (.pointDet p .r)).or <|
  (visit s.ix.signals .signal fun g r =>
    r.cfg.lamps.all fun l => s.carries (r.cfg.lampTerminal l) (.signalLamp g l)).or <|
  visit s.vu.shows .show fun n r =>
    s.carries r.cfg.button (.button n) && s.carries r.cfg.lamp (.mimic (.showLamp n))

/-! ## STOPCHAN and POLARITY (R18) -/

/-- Section `x` has drive channel `c`, and no other DEFINED section has it. -/
def State.aloneOn (s : State) (x c : Nat) : Bool := s.sectionsOn c == [x]

/-- Check 4 (R18). -/
def State.checkStopchan (s : State) : Failing :=
  visit s.ix.signals .signal fun _ r =>
    match r.cfg.stopSection with
    | none => true
    | some x =>
      match (s.section? x).bind fun q => q.cfg.channel with
      | none => false
      | some c => s.aloneOn x c

/-- The joint at end `e` of a section passes (R18). -/
def State.jointPasses (s : State) (c : SectionCfg) (ch : Nat) (e : EndName) : Bool :=
  match c.neighbour e with
  | .sectionEnd t f =>
    match s.section? t with
    | some q =>
      q.cfg.channel != some ch || ((e.polarityB != f.polarityB) == (c.sense == q.cfg.sense))
    | none => true
  | _ => true

/-- Check 5 (R18). -/
def State.checkPolarity (s : State) : Failing :=
  visit s.sections .sec fun _ r =>
    match r.cfg.channel with
    | none => true
    | some ch => r.cfg.kind.ends.all (s.jointPasses r.cfg ch)

/-! ## TURNTABLE (R19) -/

/-- Some end of a section holds TURNTABLE. -/
def SectionCfg.hasTurntable (c : SectionCfg) : Bool := c.kind.ends.any fun e => c.neighbour e == .turntable

/-- The sections of kind BRIDGE, ascending. -/
def State.bridges (s : State) : List Nat :=
  (s.sections.filter fun x => x.2.cfg.kind == .bridge).map fun x => x.1

/-- Pass 2 of R19 for bridge section `b`. -/
def State.bridgePasses (s : State) (b : Nat) : Failing :=
  match s.section? b with
  | none => some (.sec b)
  | some r =>
    if r.cfg.endA != .turntable || r.cfg.endB != .turntable
        || !(match r.cfg.channel with
          | none => true
          | some c => s.aloneOn b c) then some (.sec b)
    else if s.tu.bridge.isNone then some .turntable
    else none

/-- Pass 3 of R19 for road `k`. -/
def State.roadPasses (s : State) (k : Nat) (r : RoadCfg) : Bool :=
  let lower := s.tu.roads.filter fun q => decide (q.1 < k)
  (match s.tu.bridge with
    | some b => decide (r.position < b.steps)
    | none => false)
  && lower.all (fun q => q.2.position != r.position)
  && (match r.sec with
    | none => false
    | some x =>
      (match s.section? x with
        | some q => q.cfg.kind == .plain && q.cfg.neighbour r.bridgeEnd.toEnd == .turntable
        | none => false) && lower.all fun q => q.2.sec != some x)

/-- Pass 4 of R19 for section `x`. -/
def State.turnEndsPass (s : State) (x : Nat) (c : SectionCfg) : Bool :=
  c.kind == .bridge || c.kind.ends.all fun e => c.neighbour e != .turntable || (s.roadAt x e).isSome

/-- Check 6 (R19). -/
def State.checkTurntable (s : State) : Failing :=
  if s.bridges.isEmpty && s.tu.roads.isEmpty && !(s.sections.any fun x => x.2.cfg.hasTurntable) then none
  else
    match s.bridges with
    | [] => some .turntable
    | _ :: x :: _ => some (.sec x)
    | [b] =>
      (s.bridgePasses b).or ((visit s.tu.roads .road s.roadPasses).or
        (visit s.sections .sec fun x r => s.turnEndsPass x r.cfg))

/-! ## RUNS and CALIBRATION (R20) -/

/-- A show passes (R20). -/
def State.showPasses (s : State) (c : ShowCfg) : Bool :=
  (match c.train with
    | none => false
    | some n => (s.train? n).isSome)
  && c.legs.all fun l =>
    (match l.route with
      | none => true
      | some r => (s.route? r).isSome)
    && (match l.target with
      | none => true
      | some (k, _) => (Table.find s.tu.roads k).isSome)

/-- Check 7 (R20). -/
def State.checkRuns (s : State) : Failing :=
  (visit s.vu.shows .show fun _ r => s.showPasses r.cfg).or
    (visit s.tt.trains .train fun _ t => t.cfg.runList.all fun r => (s.route? r).isSome)

/-- Check 8 (R20). -/
def State.checkCalibration (s : State) : Failing :=
  visit s.tt.trains .train fun _ t => decide (t.cfg.v0 < t.cfg.vmax)

/-! ## The whole (R12) -/

/-- What validation reads: the configured fields of the tables, every live field at its value after power-on
(R12). A bridge that a route does not name therefore leads nowhere (log 28). -/
def State.configured (s : State) : State :=
  { sections := Table.mapVals s.sections fun r => { cfg := r.cfg }
    fc := { modules := Table.mapVals s.fc.modules fun r => { type := r.type }, terminals := s.fc.terminals }
    pu := { points := Table.mapVals s.pu.points fun r => { cfg := r.cfg } }
    ix := { routes := Table.mapVals s.ix.routes fun r => { cfg := r.cfg }
            signals := Table.mapVals s.ix.signals fun r => { cfg := r.cfg } }
    tt := { trains := Table.mapVals s.tt.trains fun t => { cfg := t.cfg } }
    tu := { bridge := s.tu.bridge, roads := s.tu.roads }
    vu := { shows := Table.mapVals s.vu.shows fun w => { cfg := w.cfg } } }

/-- The eight checks in their numbered order: the first failure, with its check word (R12). -/
def State.firstFailure (s : State) : Option (Obj × CheckWord) :=
  (s.checkTopology.map fun o => (o, CheckWord.topology)).or <|
  (s.checkPath.map fun o => (o, CheckWord.path)).or <|
  (s.checkRole.map fun o => (o, CheckWord.role)).or <|
  (s.checkStopchan.map fun o => (o, CheckWord.stopchan)).or <|
  (s.checkPolarity.map fun o => (o, CheckWord.polarity)).or <|
  (s.checkTurntable.map fun o => (o, CheckWord.turntable)).or <|
  (s.checkRuns.map fun o => (o, CheckWord.runs)).or <|
  s.checkCalibration.map fun o => (o, CheckWord.calibration)

/-- Validation (R12). -/
def State.validate (s : State) : Option (Obj × CheckWord) := s.configured.firstFailure

/-! ## Modes (R13, R14) -/

/-- Entry to RUN (R13). The shows are judged in ascending order (the model's choice, log 56). -/
def enterRunMode (s : State) : State :=
  let s1 := { s with mode := Mode.run }.report (.sysMode .run)
  let s2 := mapChannels (fun c ch => if s.sectionsOn c = [] then ch else { ch with force := .none }) s1
  let s3 := reviseOutputs s s2
  let s4 := mapChannels (fun _ ch => if ch.force = .none then { ch with shadow := 0 } else ch) s3
  let s5 := s4.setChain fun c => { c with modeRequested := .normal, requestedAt := c.composed }
  foldState judgeAvailable (s5.vu.shows.map fun w => w.1) s5

/-- MODE RUN (R12). -/
def cmdModeRun (s : State) : State × Reply :=
  if s.mode = .run then (s, .ok (.mode .run))
  else if s.saving then (s, .no .busy none)
  else
    match s.validate with
    | some (o, c) => (s, .notValid o c)
    | none => (enterRunMode s, .ok (.mode .run))

/-- MODE CONFIG in RUN is refused NO BUSY (R14). -/
def State.configBusy (s : State) : Bool :=
  s.saving || s.ix.routes.any (fun r => r.2.state != .idle) || s.tt.trains.any (fun t => t.2.current != 0)
    || s.tu.state == .moving

/-- A show at entry to CONFIG (R14, R138). -/
def endShow (n : Nat) (s : State) : State :=
  match s.show? n with
  | none => s
  | some w =>
    let s1 := (withdrawRequests (.show n) s).setShow n fun w => { cfg := w.cfg }
    match w.state with
    | .running => s1.report (.showAbort n .mode)
    | .unavailable => s1
    | _ => s1.report (.showState n .unavailable)

/-- What entry to CONFIG does before the chain is reset (R14). In CONFIG every shadow compare is 0 (R111). Requests go
oldest first, then trains and then shows in ascending order (the model's choice, log 56). -/
def leaveRun (s : State) : State :=
  let s1 := dropAllRequests s
  let s2 := foldState (fun n s => unplace n .other s)
    (s1.trainsWith fun t => t.state == .active || t.state == .lost) s1
  let s3 := foldState endShow (s2.vu.shows.map fun w => w.1) s2
  let s4 := { s3 with mode := Mode.config, vu := { s3.vu with waiting := [] } }
  let s5 := mapChannels (fun _ ch => { ch with shadow := 0, conflict := false }) (reviseOutputs s3 s4)
  { s5 with dg := { s5.dg with fallen := [] } }

/-- Entry to CONFIG (R14). -/
def enterConfig (s : State) : State := (chainReset (arrival leaveRun s)).report (.sysMode .config)

/-- MODE CONFIG (R14). -/
def cmdModeConfig (s : State) : State × Reply :=
  if s.mode = .config then (s, .ok (.mode .config))
  else if s.configBusy then (s, .no .busy none)
  else (enterConfig s, .ok (.mode .config))

end Sys2Proof.Machine
end

