-- ==== Sys2Proof/Machine/Stop.lean ====
section
/-! DEFINITION. Emergency stop commands, the stored layout image, SAVE and start-up (chapter 11). -/

namespace Sys2Proof.Machine

open Sys2Proof

/-! ## ESTOP, RESUME and the stop loop (R158, R159) -/

/-- ESTOP (R158). -/
def cmdEstop (s : State) : State × Reply := (activateStop .host s, .ok .estop)

/-- The first STOP-BUTTON terminal in chain order whose value is PRESSED (R159). -/
def State.pressedButton (s : State) : Option TermId :=
  ((s.fc.terminals.filter fun e =>
    e.2.role == .stopButton && (s.termLive (termOfKey e.1)).handed != some false).map fun e => termOfKey e.1).head?

/-- The stop ends (R159). -/
def endStop (s : State) : State :=
  let s1 := { s with ss := { s.ss with stop := false } }.report .sysResumed
  (reviseOutputs s s1).handAll [.reexamine, .judgeStart]

/-- RESUME (R159). -/
def cmdResume (s : State) : State × Reply :=
  if s.ss.stop = false then (s, .ok .resume)
  else if s.ss.loop = .opened then (s, .no .state (some .loop))
  else
    match s.pressedButton with
    | some t => (s, .no .state (some (.terminal t)))
    | none => (endStop s, .ok .resume)

/-- The loop's value becomes `v` (R158). -/
def loopChange (v : LoopValue) (s : State) : State :=
  if s.ss.loop = v then s
  else
    let s1 := { s with ss := { s.ss with loop := v } }
    match v with
    | .opened => activateStop .loop s1
    | .closed => s1

/-! ## Images (R160) -/

/-- What a SAVE copies: every record's configured fields and every setting (R160, R161). -/
def State.copyImage (s : State) : Image :=
  { sections := Table.mapVals s.sections fun r => r.cfg
    modules := Table.mapVals s.fc.modules fun r => r.type
    terminals := s.fc.terminals
    points := Table.mapVals s.pu.points fun r => r.cfg
    routes := Table.mapVals s.ix.routes fun r => r.cfg
    signals := Table.mapVals s.ix.signals fun r => r.cfg
    trains := Table.mapVals s.tt.trains fun t => t.cfg
    bridge := s.tu.bridge
    roads := s.tu.roads
    shows := Table.mapVals s.vu.shows fun w => w.cfg
    boardSources := s.vu.boards.map fun b => b.lines.map fun l => l.source
    clock := s.fc.clock
    period := s.fc.period
    recharge := s.pu.recharge
    detectTimeout := s.pu.detectTimeout
    shuntCap := s.ix.shuntCap
    cautionCap := s.ix.cautionCap
    prelimCap := s.ix.prelimCap
    lostTime := s.tt.lostTime
    bridgeCap := s.dg.bridgeCap
    drivePeriod := s.dg.shadow
    speed := s.hl.speed
    autorun := s.ss.autorun }

/-- A sequence number is above another (R160). -/
def seqAbove (a b : Nat) : Bool :=
  let d := (a + 65536 - b) % 65536
  decide (1 ≤ d) && decide (d ≤ 32767)

/-- The image and sequence number of a GOOD bank (R160). -/
def Bank.good : Bank → Option (Image × Nat)
  | .image i q true => some (i, q)
  | _ => none

/-- The current image: its bank, contents and sequence number (R160). Of two GOOD banks neither of whose numbers is
above the other, bank 1 is read (the model's choice, log 55). -/
def StopStore.current (t : StopStore) : Option (Nat × Image × Nat) :=
  match t.bank0.good, t.bank1.good with
  | some (i, a), some (j, b) => if seqAbove a b then some (0, i, a) else some (1, j, b)
  | some (i, a), none => some (0, i, a)
  | none, some (j, b) => some (1, j, b)
  | none, none => none

/-- The number of the image that follows the current one (R161). -/
def StopStore.nextSeq (t : StopStore) : Nat :=
  match t.current with
  | some (_, _, q) => (q + 1) % 65536
  | none => 0

/-- Writes a bank. -/
def StopStore.setBank (t : StopStore) (n : Nat) (b : Bank) : StopStore :=
  if n = 0 then { t with bank0 := b } else { t with bank1 := b }

/-! ## SAVE (R161) -/

/-- SAVE (R161). -/
def cmdSave (s : State) : State × Reply :=
  if s.saving then (s, .no .busy none)
  else
    let target := match s.ss.current with
      | some (0, _, _) => 1
      | _ => 0
    ({ s with ss := { s.ss.setBank target .blank with
        save := some { copy := s.copyImage, bank := target, seq := s.ss.nextSeq } } }, .ok .save)

/-- The read-back of a SAVE ends it (R161). -/
def saveEnd (good : Bool) (s : State) : State :=
  match s.ss.save with
  | none => s
  | some j =>
    ({ s with ss := { s.ss.setBank j.bank (.image j.copy j.seq good) with save := none } }).report
      (if good then .sysSaved else .sysSaveFailed)

/-- A SAVE in flight is abandoned: the target bank is left part-written and fails its CRC (R161). -/
def StopStore.abandon (t : StopStore) : StopStore :=
  match t.save with
  | none => t
  | some j => { t.setBank j.bank (.image j.copy j.seq false) with save := none }

/-! ## Start-up (R162, R163) -/

/-- The records and settings of an image, every live field at its value after power-on (R162, steps 1 and
2), loaded at moment `now`. -/
def loadImage (i : Image) (s : State) : State :=
  { s with
    sections := Table.mapVals i.sections fun c => { cfg := c, occupied := c.detector.isSome }
    fc := {
      modules := Table.mapVals i.modules fun t => { type := t }
      terminals := i.terminals
      seqDue := some (s.now + 8 * cellTime i.clock)
      flashDue := s.now + ms 500
      clock := i.clock, clockInForce := i.clock, period := i.period, periodInForce := i.period }
    pu := {
      points := Table.mapVals i.points fun c => { cfg := c }
      supply := .recharging (s.now + ms i.recharge)
      recharge := i.recharge, detectTimeout := i.detectTimeout }
    ix := {
      routes := Table.mapVals i.routes fun c => { cfg := c }
      signals := Table.mapVals i.signals fun c => { cfg := c, stopCut := c.stopSection.isSome }
      shuntCap := i.shuntCap, cautionCap := i.cautionCap, prelimCap := i.prelimCap }
    tt := {
      trains := Table.mapVals i.trains fun c =>
        { cfg := c, state := if c.tag.isSome then .unplaced else .unused }
      lostTime := i.lostTime }
    dg := { period := i.drivePeriod, shadow := i.drivePeriod, zeroAt := s.now, bridgeCap := i.bridgeCap }
    tu := { bridge := i.bridge, roads := i.roads }
    vu := {
      shows := Table.mapVals i.shows fun c => { cfg := c }
      boards := (List.range 4).map fun b => { lines := (List.range 4).map fun l =>
        { source := (((i.boardSources[b]?).getD [])[l]?).getD .blank } }
      judgeDue := s.now + ms 100 }
    ss := { s.ss with autorun := i.autorun } }

/-- The stop sources judged with the loaded terminal table (R162, step 4). -/
def State.startStop (s : State) : Option StopCause :=
  if s.ss.loop = .opened then some .loop else s.pressedButton.map .button

/-- Autorun (R162, step 5). -/
def autorun (s : State) : State :=
  match s.validate with
  | none => arrival enterRunMode s
  | some (o, c) => s.report (.sysInvalid o c)

/-- The start-up sequence (R162), with the loop's first agreed value and the link speed to start from. -/
def startUp (cause : StartCause) (loop : LoopValue) (speed : Nat) (s : State) : State :=
  let store := s.ss.abandon
  let s1 : State := {
    powered := true, pending := s.pending, now := s.now, freeCount := s.freeCount
    ss := { loop := loop, bank0 := store.bank0, bank1 := store.bank1 }, hl := { speed := speed } }
  let found := store.current
  let s2 := match found with
    | some (_, i, _) =>
      let s := loadImage i s1
      if cause = StartCause.power then { s with hl := { s.hl with speed := i.speed } } else s
    | none =>
      (loadImage {} s1).report (if store.bank0 = Bank.blank ∧ store.bank1 = Bank.blank then .sysStoreEmpty else .sysStoreBad)
  let s3 := match s2.startStop with
    | some c => arrival (activateStop c) s2
    | none => s2
  let s4 := if found.isSome ∧ s3.ss.autorun then autorun s3 else s3
  s4.report (.sysStart cause)

/-- Power is applied: the link speed is set to 57600 and the sequence runs (R162). -/
def powerOn (loop : LoopValue) (s : State) : State := startUp .power loop Config.defaultSpeed s

/-- The sequence of a RESET: the speed in force is kept (R162). -/
def resetSequence (loop : LoopValue) (s : State) : State := startUp .reset loop s.hl.speed s

/-- Power is lost: nothing but the store is kept, and a SAVE in flight is abandoned (R161). -/
def losePower (s : State) : State :=
  let store := s.ss.abandon
  { powered := false, pending := s.pending, now := s.now, freeCount := s.freeCount
    ss := { bank0 := store.bank0, bank1 := store.bank1 } }

/-- RESET (R162). -/
def cmdReset (s : State) : State × Reply := (s, .ok .reset)

end Sys2Proof.Machine
end

