-- ==== Sys2Proof/Machine/Operands.lean ====
section
/-! DEFINITION. The forms of the operands of a command line (R157): words, numbers, terminals, quoted texts,
values of several parts and lists (logs 12, 13). -/

namespace Sys2Proof.Machine

open Sys2Proof

/-! ## Text -/

/-- A text equals a word. -/
def isWord (t : Text) (w : String) : Bool := t == w.toList

/-- Splits a text at a character. -/
def splitAt (c : Char) : Text → List Text
  | [] => [[]]
  | a :: rest =>
    if a = c then [] :: splitAt c rest
    else match splitAt c rest with
      | [] => [[a]]
      | p :: ps => (a :: p) :: ps

/-- A decimal digit. -/
def digit? (c : Char) : Option Nat :=
  if 48 ≤ c.toNat ∧ c.toNat ≤ 57 then some (c.toNat - 48) else none

/-- Every character is a digit. -/
def allDigits (t : Text) : Bool := t.all fun c => (digit? c).isSome

/-- The value of decimal digits. -/
def digitsValue (t : Text) : Nat := t.foldl (fun n c => 10 * n + (digit? c).getD 0) 0

/-- Picks the value that a table of words gives a text. -/
def pick {α : Type} : List (String × α) → Text → Option α
  | [], _ => none
  | (w, a) :: rest, t => if isWord t w then some a else pick rest t

/-! ## Numbers (R153, R157) -/

/-- A number as it is written: a sign, the digits before the point, and the digits after it. -/
structure Number where
  negative : Bool
  whole : Text
  fraction : Option Text
deriving DecidableEq, Repr

/-- Reads the form of a number: digits with at most one decimal point, − in front of a signed one (R157). The point may
stand before or after all the digits (the model's choice, log 54). -/
def readNumber (t : Text) : Option Number :=
  let body := match t with
    | '-' :: rest => rest
    | _ => t
  let negative := body != t
  match splitAt '.' body with
  | [w] => if w ≠ [] ∧ allDigits w then some ⟨negative, w, none⟩ else none
  | [w, f] => if w ++ f ≠ [] ∧ allDigits w ∧ allDigits f then some ⟨negative, w, some f⟩ else none
  | _ => none

/-- A number has more than five digits (R153). -/
def Number.tooLong (n : Number) : Bool := decide (5 < n.whole.length + (n.fraction.getD []).length)

/-- The numbers written in a field value: its parts, between the full stops and the commas that join them; a quoted
text holds none (R157). -/
def valueParts (v : Text) : List Text :=
  match v with
  | '"' :: _ => []
  | _ => (splitAt ',' v).flatMap (splitAt '.')

/-- A text that is a number of more than five digits (R153). -/
def longNumber (t : Text) : Bool := (readNumber t).any Number.tooLong

/-- A field value with a number of more than five digits (R153, log 13). -/
def longValue (v : Text) : Bool := (valueParts v).any longNumber

/-- A whole number of at most five digits: what is no number is malformed, and a number that is too long,
signed or broken is out of every range (log 13). -/
def readNat (t : Text) : Except Code Nat :=
  match readNumber t with
  | none => .error .badForm
  | some n => if n.tooLong || n.negative || n.fraction.isSome then .error .range else .ok (digitsValue n.whole)

/-- A whole number from `lo` to `hi`. -/
def readIn (lo hi : Nat) (t : Text) : Except Code Nat :=
  match readNat t with
  | .error c => .error c
  | .ok n => if lo ≤ n ∧ n ≤ hi then .ok n else .error .range

/-- A number in tenths, for the chain clock: 62.5 is 625 (R30). -/
def readTenths (t : Text) : Except Code Nat :=
  match readNumber t with
  | none => .error .badForm
  | some n =>
    if n.tooLong || n.negative then .error .range
    else
      match n.fraction with
      | none | some [] => .ok (10 * digitsValue n.whole)
      | some (c :: rest) =>
        if digitsValue rest = 0 then .ok (10 * digitsValue n.whole + (digit? c).getD 0) else .error .range

/-! ## Words and parts -/

/-- A word of a fixed set; another word is out of range (log 13), and so is a number, or nothing, in its place (the
model's choice, log 65). -/
def readWordOf {α : Type} (ws : List (String × α)) (t : Text) : Except Code α :=
  match pick ws t with
  | some a => .ok a
  | none => .error .range

/-- NONE is the absent value (R157). -/
def readOption {α : Type} (f : Text → Except Code α) (t : Text) : Except Code (Option α) :=
  if isWord t "NONE" then .ok none
  else match f t with
    | .ok a => .ok (some a)
    | .error c => .error c

/-- A terminal m.t (R157). -/
def readTerminal (t : Text) : Except Code TermId :=
  match splitAt '.' t with
  | [m, k] =>
    match readIn 0 39 m, readIn 0 15 k with
    | .ok a, .ok b => .ok ⟨a, b⟩
    | .error c, _ => .error c
    | _, .error c => .error c
  | _ => .error .badForm

/-- The names of the ends (R2). -/
def endWords : List (String × EndName) :=
  [("A", .a), ("B", .b), ("TOE", .toe), ("NORMAL", .normal), ("REVERSE", .reverse)]

/-- The names of the bridge ends. -/
def bridgeEndWords : List (String × BridgeEnd) := [("A", .a), ("B", .b)]

/-- The positions N and R. -/
def positionWords : List (String × PointPos) := [("N", .n), ("R", .r)]

/-- YES and NO. -/
def yesNo : List (String × Bool) := [("YES", true), ("NO", false)]

/-- ON and OFF. -/
def onOffWords : List (String × Bool) := [("ON", true), ("OFF", false)]

/-- A pair of a number from 0 to `hi` and a word of a set: a section end, a requirement (R157). -/
def readPair {α : Type} (hi : Nat) (ws : List (String × α)) (t : Text) : Except Code (Nat × α) :=
  match splitAt '.' t with
  | [n, w] =>
    match readIn 0 hi n, readWordOf ws w with
    | .ok a, .ok b => .ok (a, b)
    | .error c, _ => .error c
    | _, .error c => .error c
  | _ => .error .badForm

/-- Reads every item, the first that fails deciding. -/
def readAll {α : Type} (f : Text → Except Code α) : List Text → Except Code (List α)
  | [] => .ok []
  | t :: rest =>
    match f t with
    | .error c => .error c
    | .ok a =>
      match readAll f rest with
      | .error c => .error c
      | .ok as => .ok (a :: as)

/-- The items of a list value: none for NONE and for an empty value (R157, log 13). -/
def listItems (t : Text) : List Text := if t = [] ∨ isWord t "NONE" then [] else splitAt ',' t

/-- A list of `lo` to `hi` items (R52). -/
def readList {α : Type} (lo hi : Nat) (f : Text → Except Code α) (t : Text) : Except Code (List α) :=
  let items := listItems t
  if items.length < lo ∨ hi < items.length then .error .range else readAll f items

/-! ## Quoted texts -/

/-- The characters between the double quotes of a quoted text (R157). -/
def unquote (t : Text) : Option Text :=
  match t with
  | '"' :: rest =>
    match rest.reverse with
    | '"' :: back => if back.contains '"' then none else some back.reverse
    | _ => none
  | _ => none

/-- A printable character (R150). -/
def printable (c : Char) : Bool := decide (32 ≤ c.toNat) && decide (c.toNat ≤ 126)

/-- A tag: 1 to 6 printable characters other than space and double quote (R88). -/
def readTag (t : Text) : Except Code Text :=
  match unquote t with
  | none => .error .badForm
  | some q =>
    if 1 ≤ q.length ∧ q.length ≤ 6 ∧ q.all (fun c => printable c && c != ' ') then .ok q else .error .range

/-- A destination: 0 to 15 printable characters (R88). -/
def readDestination (t : Text) : Except Code Text :=
  match unquote t with
  | none => .error .badForm
  | some q => if q.length ≤ 15 ∧ q.all printable then .ok q else .error .range

/-! ## Values of the record fields -/

/-- A neighbour value: NONE, TURNTABLE or a section end (R2). -/
def readNeighbour (t : Text) : Except Code Neighbour :=
  if isWord t "NONE" then .ok .buffer
  else if isWord t "TURNTABLE" then .ok .turntable
  else match readPair 127 endWords t with
    | .ok (x, e) => .ok (.sectionEnd x e)
    | .error c => .error c

/-- The lamp names (R78). -/
def lampWords : List (String × Lamp) :=
  [("RED", .red), ("YELLOW", .yellow), ("YELLOW2", .yellow2), ("GREEN", .green), ("SHUNT", .shunt)]

/-- One number of an object, applied. -/
def readObject {α : Type} (hi : Nat) (mk : Nat → α) (n : Text) : Except Code α :=
  match readIn 0 hi n with
  | .ok a => .ok (mk a)
  | .error c => .error c

/-- A number and a word, applied. -/
def readObject2 {α β : Type} (hi : Nat) (ws : List (String × β)) (mk : Nat → β → α) (n w : Text) : Except Code α :=
  match readIn 0 hi n, readWordOf ws w with
  | .ok a, .ok b => .ok (mk a b)
  | .error c, _ => .error c
  | _, .error c => .error c

/-- A mimic source with its object (R22, R144). -/
def readMimic (ps : List Text) : Except Code MimicSource :=
  match ps with
  | [w, n] =>
    if isWord w "SECTION-OCC" then readObject 127 .sectionOcc n
    else if isWord w "SECTION-LOCK" then readObject 127 .sectionLock n
    else if isWord w "SIGNAL-PROCEED" then readObject 95 .signalProceed n
    else if isWord w "ROAD" then readObject 23 .road n
    else if isWord w "SHOW-LAMP" then readObject 7 .showLamp n
    else .error .range
  | [w, n, p] => if isWord w "POINT-POS" then readObject2 63 positionWords .pointPos n p else .error .range
  | _ => .error .range

/-- A role with its object (R22). -/
def readRole (t : Text) : Except Code Role :=
  match splitAt '.' t with
  | [w] =>
    if isWord w "STOP-BUTTON" then .ok .stopButton else if isWord w "OFF" then .ok .off else .error .range
  | [w, n] =>
    if isWord w "DETECT" then readObject 127 .detect n
    else if isWord w "BUTTON" then readObject 7 .button n
    else if isWord w "AUX-IN" then readObject 15 .auxIn n
    else if isWord w "AUX-OUT" then readObject 15 .auxOut n
    else .error .range
  | w :: n :: p :: rest =>
    if isWord w "MIMIC" then
      match readMimic (n :: p :: rest) with
      | .ok m => .ok (.mimic m)
      | .error c => .error c
    else if rest ≠ [] then .error .range
    else if isWord w "POINT-DET" then readObject2 63 positionWords .pointDet n p
    else if isWord w "COIL" then readObject2 63 positionWords .coil n p
    else if isWord w "SIGNAL-LAMP" then readObject2 95 lampWords .signalLamp n p
    else .error .range
  | [] => .error .badForm

/-- An exit (R52). -/
def readExit (t : Text) : Except Code RouteExit :=
  match splitAt '.' t with
  | [w] => if isWord w "BUFFER" then .ok .buffer else .error .range
  | [w, n] =>
    if isWord w "SIGNAL" then readObject 95 .signal n
    else if isWord w "ROAD" then readObject 23 .road n
    else .error .range
  | _ => .error .badForm

/-- The four values of a leg, its target read already (R137). -/
def readLegWith (r st d : Text) (target : Except Code (Option (Nat × BridgeEnd))) : Except Code Leg :=
  match readOption (readIn 0 255) r, readIn 1 127 st, readIn 0 120 d, target with
  | .ok route, .ok step, .ok dwell, .ok tg => .ok { route := route, step := step, dwell := dwell, target := tg }
  | .error c, _, _, _ => .error c
  | _, .error c, _, _ => .error c
  | _, _, .error c, _ => .error c
  | _, _, _, .error c => .error c

/-- A leg: route, step, dwell and turntable target (R137, log 13). -/
def readLeg (t : Text) : Except Code Leg :=
  match splitAt '.' t with
  | [r, st, d, n] => readLegWith r st d (if isWord n "NONE" then .ok none else .error .badForm)
  | [r, st, d, k, e] =>
    readLegWith r st d (match readObject2 23 bridgeEndWords (fun k e => some (k, e)) k e with
      | .ok v => .ok v
      | .error c => .error c)
  | _ => .error .badForm

end Sys2Proof.Machine
end

