-- ==== Sys2Proof/Machine/Definitions.lean ====
section
/-! DEFINITION. Definition commands (R9, R10): the fields of each kind of record, and what a definition does. -/

namespace Sys2Proof.Machine

open Sys2Proof

/-- What a field value does to a record: a refusal, or a change. -/
abbrev FieldChange (α : Type) := Except Code (α → α)

/-- A value read, written by `set`. -/
def writeField {α β : Type} (v : Except Code β) (set : β → α → α) : FieldChange α :=
  match v with
  | .ok b => .ok (set b)
  | .error c => .error c

/-- A value read that changes nothing here: it has been applied before the other fields (R9, R78). -/
def appliedBefore {α β : Type} (v : Except Code β) : FieldChange α := writeField v fun _ a => a

/-- A field name unknown for its kind, or that does not exist for the record (R9). -/
def noField {α : Type} : FieldChange α := .error .badForm

/-- The fields in the order they are written: the first that fails decides, and is named (R9). -/
def readFields {α : Type} (field : Text → Text → FieldChange α) : List (Text × Text) → Except (Code × Text) (α → α)
  | [] => .ok id
  | (n, v) :: rest =>
    match field n v with
    | .error c => .error (c, n)
    | .ok f =>
      match readFields field rest with
      | .error e => .error e
      | .ok g => .ok fun a => g (f a)

/-- The last value of a field in a command that can be read. -/
def lastValue {α : Type} (name : String) (read : Text → Except Code α) : List (Text × Text) → Option α
  | [] => none
  | (n, v) :: rest =>
    match lastValue name read rest with
    | some a => some a
    | none =>
      if isWord n name then
        match read v with
        | .ok a => some a
        | .error _ => none
      else none

/-! ## SECTION (R1, R2) -/

/-- The kinds of a section. -/
def kindWords : List (String × SectionKind) := [("PLAIN", .plain), ("POINT", .point), ("BRIDGE", .bridge)]

/-- A change of kind: ends in both kinds keep their values, and the point field goes with the kind POINT (R2). -/
def SectionCfg.setKind (k : SectionKind) (c : SectionCfg) : SectionCfg :=
  if k = c.kind then c
  else if k = .point ∨ c.kind = .point then
    { c with
      kind := k, point := none, endA := .buffer, endB := .buffer, endToe := .buffer, endNormal := .buffer
      endReverse := .buffer }
  else { c with kind := k }

/-- The neighbour field of end `e`, for a record of kind `k`. -/
def endField (k : SectionKind) (e : EndName) (v : Text) : FieldChange SectionCfg :=
  if k.ends.contains e then writeField (readNeighbour v) fun n c => c.setNeighbour e n else noField

/-- A field of a section whose kind is `k` after the command (R1). -/
def sectionField (k : SectionKind) (n v : Text) : FieldChange SectionCfg :=
  if isWord n "KIND" then appliedBefore (readWordOf kindWords v)
  else if isWord n "A" then endField k .a v
  else if isWord n "B" then endField k .b v
  else if isWord n "TOE" then endField k .toe v
  else if isWord n "NORMAL" then endField k .normal v
  else if isWord n "REVERSE" then endField k .reverse v
  else if isWord n "POINT" then
    if k = .point then writeField (readIn 0 63 v) fun p c => { c with point := some p } else noField
  else if isWord n "DETECTOR-TERMINAL" then
    writeField (readOption readTerminal v) fun t c => { c with detector := t }
  else if isWord n "CLEAR-DELAY" then writeField (readIn 0 2000 v) fun d c => { c with clearDelay := d }
  else if isWord n "SPEED-LIMIT" then writeField (readIn 0 127 v) fun d c => { c with speedLimit := d }
  else if isWord n "DRIVE-CHANNEL" then
    writeField (readOption (readIn 0 23) v) fun d c => { c with channel := d }
  else if isWord n "SENSE" then
    writeField (readWordOf [("+", Sense.plus), ("-", Sense.minus)] v) fun d c => { c with sense := d }
  else if isWord n "PLATFORM" then
    writeField (readOption (readIn 1 9) v) fun d c => { c with platform := d }
  else noField

/-! ## MODULE and TERMINAL (R21, R22) -/

/-- The types of a module. -/
def typeWords : List (String × ModuleType) :=
  [("GENERAL", .general), ("DETECTOR", .detector), ("DRIVER", .driver)]

/-- A field of a module (R21). -/
def moduleField (n v : Text) : FieldChange ModuleType :=
  if isWord n "TYPE" then writeField (readWordOf typeWords v) fun t _ => t else noField

/-- The directions of a terminal. -/
def directionWords : List (String × Direction) := [("SENSE", .sense), ("DRIVE", .drive)]

/-- The direction a role has, or none for OFF (R22). -/
def roleDirection (r : Role) : Option Direction :=
  if r.isSense then some .sense else if r.isDrive then some .drive else none

/-- Writing a role sets the direction to match (R22). -/
def TerminalCfg.setRole (r : Role) (c : TerminalCfg) : TerminalCfg :=
  { c with role := r, direction := (roleDirection r).getD c.direction }

/-- The direction field of a record whose role is `r` after the command (R22). -/
def directionField (r : Role) (v : Text) : FieldChange TerminalCfg :=
  match readWordOf directionWords v with
  | .error c => .error c
  | .ok d =>
    if (roleDirection r).any fun x => x != d then .error .range else .ok fun c => { c with direction := d }

/-- A field of a terminal whose role is `r` after the command (R22). -/
def terminalField (r : Role) (n v : Text) : FieldChange TerminalCfg :=
  if isWord n "DIRECTION" then directionField r v
  else if isWord n "PULL-UP" then writeField (readWordOf onOffWords v) fun b c => { c with pullUp := b }
  else if isWord n "ROLE-AND-OBJECT" then writeField (readRole v) fun r c => c.setRole r
  else if isWord n "ACTIVE-LEVEL" then
    writeField (readWordOf [("HIGH", Level.high), ("LOW", Level.low)] v) fun l c => { c with active := l }
  else noField

/-! ## POINT (R39) -/

/-- A terminal field. -/
def terminalValue {α : Type} (v : Text) (set : Option TermId → α → α) : FieldChange α :=
  writeField (readOption readTerminal v) set

/-- A field of a point (R39). -/
def pointField (n v : Text) : FieldChange PointCfg :=
  if isWord n "COIL-N-TERMINAL" then terminalValue v fun t c => { c with coilN := t }
  else if isWord n "COIL-R-TERMINAL" then terminalValue v fun t c => { c with coilR := t }
  else if isWord n "DETECTION-N-TERMINAL" then terminalValue v fun t c => { c with detN := t }
  else if isWord n "DETECTION-R-TERMINAL" then terminalValue v fun t c => { c with detR := t }
  else if isWord n "PULSE-LENGTH" then writeField (readIn 20 500 v) fun d c => { c with pulseLength := d }
  else noField

/-! ## ROUTE and SIGNAL (R52, R77, R78) -/

/-- A field of a route (R52). -/
def routeField (n v : Text) : FieldChange RouteCfg :=
  if isWord n "ENTRY-SIGNAL" then writeField (readOption (readIn 0 95) v) fun g c => { c with entry := g }
  else if isWord n "EXIT" then writeField (readExit v) fun x c => { c with exit := x }
  else if isWord n "TYPE" then
    writeField (readWordOf [("MAIN", RouteType.main), ("SHUNT", RouteType.shunt)] v) fun t c => { c with type := t }
  else if isWord n "PATH" then writeField (readList 1 12 (readIn 0 127) v) fun l c => { c with path := l }
  else if isWord n "POINT-REQUIREMENTS" then
    writeField (readList 0 10 (readPair 63 positionWords) v) fun l c => { c with points := l }
  else if isWord n "FLANK-REQUIREMENTS" then
    writeField (readList 0 6 (readPair 63 positionWords) v) fun l c => { c with flanks := l }
  else if isWord n "OVERLAP" then writeField (readList 0 2 (readIn 0 127) v) fun l c => { c with overlap := l }
  else if isWord n "APPROACH" then writeField (readList 0 3 (readIn 0 127) v) fun l c => { c with approach := l }
  else if isWord n "BRIDGE-REQUIREMENT" then
    writeField (readOption (readPair 23 bridgeEndWords) v) fun b c => { c with bridge := b }
  else if isWord n "APPROACH-RELEASE-TIME" then
    writeField (readIn 0 120 v) fun d c => { c with approachRelease := d }
  else if isWord n "OVERLAP-RELEASE-TIME" then
    writeField (readIn 0 60 v) fun d c => { c with overlapRelease := d }
  else noField

/-- The head types. -/
def headWords : List (String × HeadType) := [("TWO", .two), ("THREE", .three), ("FOUR", .four)]

/-- A head type and a shunt lamp field: the lamps taken away lose their terminals (R78). -/
def SignalCfg.setHead (h : HeadType) (shunt : Bool) (c : SignalCfg) : SignalCfg :=
  let d := { c with head := h, shuntLamp := shunt }
  let keep := fun (l : Lamp) (t : Option TermId) => if d.lamps.contains l then t else none
  { d with
    red := keep .red c.red, yellow := keep .yellow c.yellow, yellow2 := keep .yellow2 c.yellow2
    green := keep .green c.green, shunt := keep .shunt c.shunt }

/-- A field of a signal whose head is that of `base` after the command (R77, R78). -/
def signalField (base : SignalCfg) (n v : Text) : FieldChange SignalCfg :=
  if isWord n "LOCATION" then
    writeField (readOption (readPair 127 endWords) v) fun l c => { c with location := l }
  else if isWord n "HEAD-TYPE" then appliedBefore (readWordOf headWords v)
  else if isWord n "SHUNT-LAMP" then appliedBefore (readWordOf yesNo v)
  else if isWord n "STOP-SECTION" then
    writeField (readOption (readIn 0 127) v) fun x c => { c with stopSection := x }
  else
    match pick lampWords n with
    | some l => if base.lamps.contains l then terminalValue v fun t c => c.setLamp l t else noField
    | none => noField

/-! ## TRAIN (R88) -/

/-- A name with or without the symbol that its table prints after it (log 12). -/
def isName (n : Text) (w symbol : String) : Bool := isWord n w || n == w.toList ++ ['-'] ++ symbol.toList

/-- A field of a train (R88). -/
def trainField (n v : Text) : FieldChange TrainCfg :=
  if isWord n "TAG" then writeField (readOption readTag v) fun t c => { c with tag := t }
  else if isWord n "DESTINATION" then writeField (readDestination v) fun t c => { c with destination := t }
  else if isName n "START-DUTY" "V0" then writeField (readIn 0 999 v) fun d c => { c with v0 := d }
  else if isName n "TOP-DUTY" "VMAX" then writeField (readIn 1 1000 v) fun d c => { c with vmax := d }
  else if isWord n "ACCEL-RATE" then writeField (readIn 1 255 v) fun d c => { c with accel := d }
  else if isWord n "BRAKE-RATE" then writeField (readIn 1 255 v) fun d c => { c with brake := d }
  else if isWord n "EMERGENCY-RATE" then writeField (readIn 16 2032 v) fun d c => { c with emergency := d }
  else noField

/-! ## TURNTABLE and ROAD (R124, R125) -/

/-- Steps per turn: 400 to 12800, even (R124). -/
def readTurnSteps (t : Text) : Except Code Nat :=
  match readIn 400 12800 t with
  | .error c => .error c
  | .ok n => if n % 2 = 0 then .ok n else .error .range

/-- A field of the bridge record (R124). -/
def bridgeField (n v : Text) : FieldChange BridgeCfg :=
  if isName n "STEPS-PER-TURN" "N" then writeField (readTurnSteps v) fun d c => { c with steps := d }
  else if isName n "MINIMUM-RATE" "R_MIN" then writeField (readIn 10 2000 v) fun d c => { c with rMin := d }
  else if isName n "MAXIMUM-RATE" "R_MAX" then writeField (readIn 10 4000 v) fun d c => { c with rMax := d }
  else if isWord n "ACCELERATION" then writeField (readIn 10 20000 v) fun d c => { c with accel := d }
  else noField

/-- A field of a road (R125). -/
def roadField (n v : Text) : FieldChange RoadCfg :=
  if isName n "POSITION" "P" then writeField (readIn 0 12799 v) fun d c => { c with position := d }
  else if isWord n "SECTION" then writeField (readOption (readIn 0 127) v) fun x c => { c with sec := x }
  else if isWord n "BRIDGE-SIDE-END" then
    writeField (readWordOf bridgeEndWords v) fun e c => { c with bridgeEnd := e }
  else noField

/-! ## SHOW (R137) -/

/-- A field of a show (R137). -/
def showField (n v : Text) : FieldChange ShowCfg :=
  if isWord n "BUTTON-TERMINAL" then terminalValue v fun t c => { c with button := t }
  else if isWord n "LAMP-TERMINAL" then terminalValue v fun t c => { c with lamp := t }
  else if isWord n "TRAIN" then writeField (readOption (readIn 0 31) v) fun t c => { c with train := t }
  else if isWord n "LEGS" then writeField (readList 1 8 readLeg v) fun l c => { c with legs := l }
  else if isWord n "COOL-DOWN" then writeField (readIn 0 600 v) fun d c => { c with coolDown := d }
  else if isWord n "LEG-TIMEOUT" then writeField (readIn 10 600 v) fun d c => { c with legTimeout := d }
  else if isWord n "ENABLED" then writeField (readWordOf yesNo v) fun b c => { c with enabled := b }
  else noField

/-! ## What a definition does -/

/-- The old and the new owner of a terminal take what the definition leaves them (R23). The old owner's section or point
is brought up to date before the new owner takes its unqualified value (the model's choice, log 60). -/
def reownTerminal (k : Nat) (old : TerminalCfg) (s : State) : State :=
  let t := termOfKey k
  let new := s.terminal t
  if old.direction = new.direction ∧ old.role = new.role ∧ old.active = new.active then s
  else
    let was := (s.termLive t).handed
    let s1 := s.setLive k fun _ => {}
    ownerTakes t new.role was none (match old.role with
      | .detect x => refreshSection x s1
      | .pointDet p _ => refreshPoint p s1
      | _ => s1)

/-- Writes the record of terminal `k` (R22, R23). -/
def putTerminal (k : Nat) (c : TerminalCfg) (s : State) : State :=
  let old := s.terminal (termOfKey k)
  reownTerminal k old (s.setChain fun f => { f with terminals := Table.put f.terminals k c })

/-- Deletes the record of terminal `k` (R22). -/
def dropTerminal (k : Nat) (s : State) : State :=
  let old := s.terminal (termOfKey k)
  reownTerminal k old (s.setChain fun f => { f with terminals := Table.drop f.terminals k })

/-- Writes section `x`, its occupancy following its detector terminal (R1, R3). -/
def putSection (x : Nat) (c : SectionCfg) (s : State) : State :=
  let r := match s.section? x with
    | some r => { r with cfg := c }
    | none => { cfg := c }
  refreshSection x { s with sections := Table.put s.sections x r }

/-- Deletes section `x`: its occupancy becomes CLEAR (R9). -/
def dropSection (x : Nat) (s : State) : State :=
  let s1 := setOccupied x false s
  { s1 with sections := Table.drop s1.sections x }

/-- Writes point `p`; `fresh` when it is created or a detection terminal is written (R40). -/
def putPoint (p : Nat) (c : PointCfg) (fresh : Bool) (s : State) : State :=
  let old := s.point? p
  let r : PointRec := match old with
    | some r => { r with cfg := c }
    | none => { cfg := c }
  let r' := if fresh then { r with
      position := .unknown, commanded := none, failed := false, reading := s.readingNow p c } else r
  let s1 := { s with pu := { s.pu with points := Table.put s.pu.points p r' } }
  if r.position = r'.position then s1 else s1.hand (.pointChange p .moved)

/-- Writes train `n`, which is UNPLACED with a tag and UNUSED without (R88). -/
def putTrain (n : Nat) (c : TrainCfg) (s : State) : State :=
  let r : TrainRec := match s.train? n with
    | some t => { t with cfg := c }
    | none => { cfg := c }
  let r' := if c.tag.isNone then { r.initial .unused with cfg := c }
    else if r.state = .unused then { r.initial .unplaced with cfg := c }
    else r
  let s1 := { s with tt := { s.tt with trains := Table.put s.tt.trains n r' } }
  if r.state = r'.state then s1 else s1.hand (.trainChange n .other)

/-- The bridge becomes UNHOMED by a definition (R124). -/
def unhome (s : State) : State :=
  ((s.setTurn fun t => { t with
    state := .unhomed, position := none, faceA := none, faceB := none }).report (.turnUnhomed true)).hand .bridgeChange

/-- Writes the bridge record (R124). A definition that creates the record is none that changes N (the model's choice, log
63). -/
def putBridge (c : BridgeCfg) (s : State) : State :=
  let s1 := s.setTurn fun t => { t with bridge := some c }
  match s.tu.bridge with
  | some b => if b.steps = c.steps then s1 else unhome s1
  | none => s1

/-- Deletes the bridge record (R124). A deletion of a record that is ABSENT changes nothing and reports nothing (the
model's choice, log 70). -/
def dropBridge (s : State) : State :=
  match s.tu.bridge with
  | some _ => unhome (s.setTurn fun t => { t with bridge := none })
  | none => s

/-- Writes road `k` (R125). -/
def putRoad (k : Nat) (c : RoadCfg) (s : State) : State :=
  judgeFacings (s.setTurn fun t => { t with roads := Table.put t.roads k c })

/-- Deletes road `k` (R125). -/
def dropRoad (k : Nat) (s : State) : State :=
  judgeFacings (s.setTurn fun t => { t with roads := Table.drop t.roads k })

/-- Writes route `r`. -/
def putRoute (r : Nat) (c : RouteCfg) (s : State) : State :=
  let q : RouteRec := match s.route? r with
    | some q => { q with cfg := c }
    | none => { cfg := c }
  { s with ix := { s.ix with routes := Table.put s.ix.routes r q } }

/-- Writes signal `g`. -/
def putSignal (g : Nat) (c : SignalCfg) (s : State) : State :=
  let q : SignalRec := match s.signal? g with
    | some q => { q with cfg := c }
    | none => { cfg := c }
  { s with ix := { s.ix with signals := Table.put s.ix.signals g q } }

/-- Writes show `n`. -/
def putShow (n : Nat) (c : ShowCfg) (s : State) : State :=
  let q : ShowRec := match s.show? n with
    | some q => { q with cfg := c }
    | none => { cfg := c }
  judgeAvailable n { s with vu := { s.vu with shows := Table.put s.vu.shows n q } }

/-- Deletes show `n`. -/
def dropShow (n : Nat) (s : State) : State := { s with vu := { s.vu with shows := Table.drop s.vu.shows n } }

/-- Writes module `m`; a change of the module table starts a chain reset once it has taken effect (R21). -/
def putModule (m : Nat) (t : ModuleType) (s : State) : State :=
  if s.moduleType m = some t then s
  else
    let r : ModuleRec := match Table.find s.fc.modules m with
      | some r => { r with type := t }
      | none => { type := t }
    chainReset (s.setChain fun c => { c with modules := Table.put c.modules m r })

/-- Deletes module `m` (R21). -/
def dropModule (m : Nat) (s : State) : State :=
  if (s.moduleType m).isNone then s
  else chainReset (s.setChain fun c => { c with modules := Table.drop c.modules m })

/-! ## The command (R9, R10) -/

/-- A record named by kind and number. -/
inductive Target where
  | sec (x : Nat)
  | module (m : Nat)
  | terminal (k : Nat)
  | point (p : Nat)
  | route (r : Nat)
  | signal (g : Nat)
  | train (n : Nat)
  | turntable
  | road (k : Nat)
  | show (n : Nat)
deriving DecidableEq, Repr

/-- A numbered record below `bound`. -/
def numbered (bound : Nat) (mk : Nat → Target) : RecordRef → Except Code Target
  | .num n => if n < bound then .ok (mk n) else .error .range
  | .other => .error .range
  | _ => .error .badForm

/-- The record a definition names: the kind word, then the number (R10). A number where the kind word is due does not
fit the form (R153). -/
def target (kind : Text) (r : RecordRef) : Except Code Target :=
  if (readNumber kind).isSome then .error .badForm
  else if isWord kind "SECTION" then numbered Config.maxSections .sec r
  else if isWord kind "MODULE" then numbered Config.maxModules .module r
  else if isWord kind "TERMINAL" then
    match r with
    | .terminal m t =>
      if m < Config.maxModules ∧ t < Config.terminalsPerModule then .ok (.terminal (TermId.key ⟨m, t⟩))
      else .error .range
    | .other => .error .range
    | _ => .error .badForm
  else if isWord kind "POINT" then numbered Config.maxPoints .point r
  else if isWord kind "ROUTE" then numbered Config.maxRoutes .route r
  else if isWord kind "SIGNAL" then numbered Config.maxSignals .signal r
  else if isWord kind "TRAIN" then numbered Config.maxTrains .train r
  else if isWord kind "TURNTABLE" then
    match r with
    | .unnamed => .ok .turntable
    | _ => .error .badForm
  else if isWord kind "ROAD" then numbered Config.maxRoads .road r
  else if isWord kind "SHOW" then numbered Config.maxShows .show r
  else .error .unknown

/-- The record bars its definition: a point not at rest, or the bridge and any road, in range or not, while the
bridge steps (R10). -/
def State.definitionBusy (s : State) (kind : Text) : Except Code Target → Bool
  | .ok (.point p) =>
    match s.point? p with
    | some r => r.phase != .atRest
    | none => false
  | .ok .turntable => s.tu.ten
  | _ => isWord kind "ROAD" && s.tu.ten

/-- A number of more than five digits in the record a definition names (R153). -/
def RecordRef.tooLong : RecordRef → Bool
  | .num n => decide (99999 < n)
  | .terminal m t => decide (99999 < m) || decide (99999 < t)
  | .unnamed | .other => false

/-- The refusals of R10, in order. A command whose words do not fit the kind's form comes before them, and then one
with a number of more than five digits, in its record or, as `long` says, in its fields (R153). -/
def definitionTarget (kind : Text) (r : RecordRef) (long : Bool) (s : State) : Except Code Target :=
  let t := target kind r
  match t with
  | .error .badForm => .error .badForm
  | _ =>
    if long || RecordRef.tooLong r then .error .range
    else if s.mode = .run then .error .mode
    else if s.saving then .error .busy
    else if s.definitionBusy kind t then .error .busy
    else t

/-- The refused field is named (R9). -/
def fieldRefusal (e : Code × Text) (s : State) : State × Reply := (s, .no e.1 (some (.word e.2)))

/-- Applies the fields read to a record, or refuses naming the field. -/
def applyFields {α : Type} (fields : Except (Code × Text) (α → α)) (old : α) (put : α → State → State) (s : State) :
    State × Reply :=
  match fields with
  | .error e => fieldRefusal e s
  | .ok f => (put (f old) s, .ok .bare)

/-- Some field of a command has one of these names. -/
def names (fields : List (Text × Text)) (ws : List String) : Bool :=
  fields.any fun f => ws.any fun w => isWord f.1 w

/-- The section record before the other fields: its kind changed first (R9), to the last KIND the command names
(log 46). -/
def sectionBase (fields : List (Text × Text)) (x : Nat) (s : State) : SectionCfg :=
  let old := match s.section? x with
    | some r => r.cfg
    | none => {}
  match lastValue "KIND" (readWordOf kindWords) fields with
  | some k => old.setKind k
  | none => old

/-- The signal record before the other fields: head and shunt lamp changed first (R78). -/
def signalBase (fields : List (Text × Text)) (g : Nat) (s : State) : SignalCfg :=
  let old := match s.signal? g with
    | some r => r.cfg
    | none => {}
  old.setHead ((lastValue "HEAD-TYPE" (readWordOf headWords) fields).getD old.head)
    ((lastValue "SHUNT-LAMP" (readWordOf yesNo) fields).getD old.shuntLamp)

/-- The field checks of R9 and the effect of a definition that passes. -/
def defineRecord (t : Target) (fields : List (Text × Text)) (s : State) : State × Reply :=
  match t with
  | .sec x =>
    let base := sectionBase fields x s
    arrivalReply (applyFields (readFields (sectionField base.kind) fields) base (putSection x)) s
  | .module m =>
    applyFields (readFields moduleField fields) ((s.moduleType m).getD .general) (putModule m) s
  | .terminal k =>
    let old := s.terminal (termOfKey k)
    let r := (lastValue "ROLE-AND-OBJECT" readRole fields).getD old.role
    arrivalReply (applyFields (readFields (terminalField r) fields) old (putTerminal k)) s
  | .point p =>
    let old := match s.point? p with
      | some r => r.cfg
      | none => {}
    let fresh := (s.point? p).isNone || names fields ["DETECTION-N-TERMINAL", "DETECTION-R-TERMINAL"]
    arrivalReply (applyFields (readFields pointField fields) old fun c s => putPoint p c fresh s) s
  | .route r =>
    let old := match s.route? r with
      | some q => q.cfg
      | none => {}
    arrivalReply (applyFields (readFields routeField fields) old (putRoute r)) s
  | .signal g =>
    let base := signalBase fields g s
    arrivalReply (applyFields (readFields (signalField base) fields) base (putSignal g)) s
  | .train n =>
    let old := match s.train? n with
      | some t => t.cfg
      | none => {}
    arrivalReply (applyFields (readFields trainField fields) old (putTrain n)) s
  | .turntable => arrivalReply (applyFields (readFields bridgeField fields) (s.tu.bridge.getD {}) putBridge) s
  | .road k =>
    arrivalReply (applyFields (readFields roadField fields) ((Table.find s.tu.roads k).getD {}) (putRoad k)) s
  | .show n =>
    let old := match s.show? n with
      | some w => w.cfg
      | none => {}
    arrivalReply (applyFields (readFields showField fields) old (putShow n)) s

/-- The effect of a deletion (R9): the record becomes ABSENT. -/
def deleteRecord (t : Target) (s : State) : State :=
  match t with
  | .sec x => arrival (dropSection x) s
  | .module m => dropModule m s
  | .terminal k => arrival (dropTerminal k) s
  | .point p => arrival (fun s => { s with pu := { s.pu with points := Table.drop s.pu.points p } }) s
  | .route r => arrival (fun s => { s with ix := { s.ix with routes := Table.drop s.ix.routes r } }) s
  | .signal g => arrival (fun s => { s with ix := { s.ix with signals := Table.drop s.ix.signals g } }) s
  | .train n => arrival (fun s =>
      { s with tt := { s.tt with trains := Table.drop s.tt.trains n } }.hand (.trainChange n .other)) s
  | .turntable => arrival dropBridge s
  | .road k => arrival (dropRoad k) s
  | .show n => arrival (dropShow n) s

/-- DEF kind n field=value … (R9, R10). A definition of no field does not fit the form. -/
def cmdDefine (kind : Text) (r : RecordRef) (fields : List (Text × Text)) (s : State) : State × Reply :=
  if fields = [] then (s, .no .badForm none)
  else
    match definitionTarget kind r (fields.any fun f => longValue f.2) s with
    | .error c => (s, .no c none)
    | .ok t => defineRecord t fields s

/-- DEF kind n DELETE (R9, R10). -/
def cmdDefDelete (kind : Text) (r : RecordRef) (s : State) : State × Reply :=
  match definitionTarget kind r false s with
  | .error c => (s, .no c none)
  | .ok t => (deleteRecord t s, .ok .bare)

end Sys2Proof.Machine
end

