-- ==== Sys2Proof/Machine/Settings.lean ====
section
/-! DEFINITION. SETUP, TELL, AUX and BAUD (R149, R154, R156). -/

namespace Sys2Proof.Machine

open Sys2Proof

/-! ## SETUP (R154) -/

/-- The chain clocks accepted, in tenths of a kHz (R30). -/
def chainClocks : List Nat := [10000, 5000, 2500, 1250, 625]

/-- A chain clock (R30). -/
def readClock (t : Text) : Except Code Nat :=
  match readTenths t with
  | .error c => .error c
  | .ok n => if chainClocks.contains n then .ok n else .error .range

/-- A setting of the point supply, written. -/
def State.setSupply (s : State) (f : PointUnit → PointUnit) : State := { s with pu := f s.pu }

/-- A setting of the interlocking, written. -/
def State.setCaps (s : State) (f : Interlocking → Interlocking) : State := { s with ix := f s.ix }

/-- One key of SETUP: a refusal, or the write (R154). -/
def setupKey (key v : Text) : FieldChange State :=
  if isWord key "CHAIN-CLOCK" then writeField (readClock v) fun n s => s.setChain fun c => { c with clock := n }
  else if isWord key "SCAN-PERIOD" then
    writeField (readIn 5 50 v) fun n s => s.setChain fun c => { c with period := n }
  else if isWord key "RECHARGE" then
    writeField (readIn 100 2000 v) fun n s => s.setSupply fun p => { p with recharge := n }
  else if isWord key "DETECT-TIMEOUT" then
    writeField (readIn 300 5000 v) fun n s => s.setSupply fun p => { p with detectTimeout := n }
  else if isWord key "SHUNT-CAP" then
    writeField (readIn 0 127 v) fun n s => s.setCaps fun i => { i with shuntCap := n }
  else if isWord key "CAUTION-CAP" then
    writeField (readIn 0 127 v) fun n s => s.setCaps fun i => { i with cautionCap := n }
  else if isWord key "PRELIM-CAP" then
    writeField (readIn 0 127 v) fun n s => s.setCaps fun i => { i with prelimCap := n }
  else if isWord key "LOST-TIME" then
    writeField (readIn 500 10000 v) fun n s => { s with tt := { s.tt with lostTime := n } }
  else if isWord key "BRIDGE-CAP" then
    writeField (readIn 0 127 v) fun n s => { s with dg := { s.dg with bridgeCap := n } }
  else if isWord key "AUTORUN" then
    writeField (readWordOf yesNo v) fun b s => { s with ss := { s.ss with autorun := b } }
  else noField

/-- The object a refused pair names: the key, for a value out of its range (R154). -/
def setupObject (c : Code) (key : Text) : Option Obj := if c = .range then some (.word key) else none

/-- SETUP key=value … (R154). A value that is a number of more than five digits is refused before any key is judged
(R153), and so before a word where a number is due, which is judged in its pair's place (the model's choice, log 64). -/
def cmdSetup (pairs : List (Text × Text)) (s : State) : State × Reply :=
  if pairs = [] then (s, .no .badForm none)
  else if pairs.any fun p => longNumber p.2 then (s, .no .range none)
  else
    match readFields setupKey pairs with
    | .error (c, key) => (s, .no c (setupObject c key))
    | .ok f => (f s, .ok .setup)

/-! ## TELL (R154) -/

/-- The classes after the words of TELL, in the order written; the first class unknown decides (R154). -/
def tellClasses : List TellWord → List ReportClass → Except Code (List ReportClass)
  | [], cs => .ok cs
  | .unsigned :: _, _ => .error .badForm
  | .enable none :: _, _ | .disable none :: _, _ => .error .unknown
  | .enable (some c) :: rest, cs => tellClasses rest (if cs.contains c then cs else c :: cs)
  | .disable (some c) :: rest, cs => tellClasses rest (cs.filter fun d => d != c)

/-- TELL +class −class … (R154). A word without a sign does not fit the form, which comes before every check of a class
(R153). The classes are kept, and listed in the reply, in the order in which R155 names them (the model's choice, log
71). -/
def cmdTell (ws : List TellWord) (s : State) : State × Reply :=
  if ws = [] ∨ ws.contains .unsigned then (s, .no .badForm none)
  else
    match tellClasses ws s.hl.classes with
    | .error c => (s, .no c none)
    | .ok cs =>
      let ordered := Config.allClasses.filter cs.contains
      ({ s with hl := { s.hl with classes := ordered } }, .ok (.tell ordered))

/-! ## AUX and BAUD (R156, R149) -/

/-- AUX a v (R156). -/
def cmdAux (a v : Nat) (s : State) : State × Reply :=
  if 16 ≤ a ∨ 2 ≤ v then (s, .no .range none)
  else ({ s with hl := { s.hl with auxOut := s.hl.auxOut.set a (v == 1) } }, .ok (.aux a v))

/-- BAUD n: the reply is sent at the old speed (R149). -/
def cmdBaud (n : Nat) (s : State) : State × Reply :=
  if Config.speeds.contains n then (s, .ok (.baud n)) else (s, .no .range none)

end Sys2Proof.Machine
end

