-- ==== Sys2Proof/Machine/Queries.lean ====
section
/-! DEFINITION. GET, kind by kind. Each answers a reply and, but for GET LINK, changes nothing. A number out of
range is refused NO RANGE (log 14). -/

namespace Sys2Proof.Machine

open Sys2Proof

/-- A reply for a number below `bound`. -/
def within (bound n : Nat) (r : OkBody) : Reply := if n < bound then .ok r else .no .range none

/-- GET SECTION s (R4). -/
def replySection (x : Nat) (s : State) : Reply :=
  within Config.maxSections x (.getSection x (s.section? x) (s.holder x))

/-- GET MODULE m (R21). -/
def replyModule (m : Nat) (s : State) : Reply :=
  let r := Table.find s.fc.modules m
  let inside := decide (m < s.chainLength)
  within Config.maxModules m (.getModule m (r.map fun r => r.type)
    (if inside then r.map fun r => r.health else none) (r.isSome && !inside))

/-- GET TERMINAL m.t (R23). An input's value handed to its owner; the sampled value of a terminal without an
owner shows as its qualified value alone. -/
def replyTerminal (m t : Nat) (s : State) : Reply :=
  let id : TermId := ⟨m, t⟩
  let l := s.termLive id
  let c := s.terminal id
  let handed := if c.role.isSense then some (s.heldValue id.key) else none
  if m < Config.maxModules ∧ t < Config.terminalsPerModule then
    .ok (.getTerminal id c l.lastSample l.qualified handed (decide (s.chainLength ≤ m)))
  else .no .range none

/-- GET CHAIN (R36). -/
def replyChain (s : State) : Reply :=
  let c := s.fc
  .ok (.getChain {
    seq := c.seq, condition := c.condition, length := s.chainLength, found := c.found
    modeInForce := c.modeInForce, modeRequested := c.modeRequested, clock := c.clock, period := c.period
    lastFault := c.lastFault
    awaited := if c.condition = .settling then s.awaited.map termOfKey else none })

/-- GET POINT p (R40). -/
def replyPoint (p : Nat) (s : State) : Reply :=
  within Config.maxPoints p (.getPoint p ((s.point? p).map fun r => {
    record := r, detected := r.cfg.detected, sec := s.pointSection p
    place := placeOf (fun e => e.1 == p) s.pu.queue }))

/-- GET SUPPLY (R44). -/
def replySupply (s : State) : Reply := .ok (.getSupply s.pu.supply s.pu.queue s.pu.recharge s.pu.detectTimeout)

/-- The queue place, origin and expiry of route `r`'s entry (R53). -/
def State.requestView (s : State) (r : Nat) : Option RequestView :=
  match placeOf (fun q : Request => q.route == r) s.ix.requests, s.request? r with
  | some n, some q => some { place := n, origin := q.origin, expiry := q.expiry }
  | _, _ => none

/-- GET ROUTE r (R53). -/
def replyRoute (r : Nat) (s : State) : Reply :=
  within Config.maxRoutes r (.getRoute r ((s.route? r).map fun q => {
    record := q, lockedSections := s.lockedSections r, lockedPoints := s.lockedPoints r
    lockedBridge := s.tu.locks.contains r
    settingLeft := s.left q.settingTimer, approachLeft := s.left q.approachTimer
    overlapLeft := s.left q.overlapTimer, dwellLeft := s.left q.dwellTimer
    request := s.requestView r }))

/-- GET SIGNAL g (R79). -/
def replySignal (g : Nat) (s : State) : Reply :=
  within Config.maxSignals g (.getSignal g ((s.signal? g).map fun q => {
    record := q
    led := (s.ledRoute g).bind fun r => (s.route? r).map fun c => (r, c.state)
    lamps := q.cfg.lamps.map fun l => (l, lampValue q.cfg q.aspect l) }))

/-- GET TRAIN n (R89). -/
def replyTrain (n : Nat) (s : State) : Reply :=
  within Config.maxTrains n (.getTrain n (s.train? n) ((s.train? n).bind fun t => s.left t.lostTimer))

/-- GET TIMEBASE (R106): the tick interval as K × P counts. -/
def replyTimebase (s : State) : Reply :=
  let k := tickDivisor s.dg.period
  .ok (.getTimebase s.dg.period s.dg.shadow k (k * s.dg.period))

/-- GET CHANNEL c (R108). -/
def replyChannel (c : Nat) (s : State) : Reply :=
  within Config.maxChannels c (.getChannel c (s.channel c) (s.sectionsOn c))

/-- GET TURNTABLE (R126). -/
def replyTurntable (s : State) : Reply := .ok (.getTurntable s.tu)

/-- The bridge end that faces road `k` (R125). -/
def State.facingEnd (s : State) (k : Nat) : Option BridgeEnd :=
  if s.tu.faceA = some k then some .a else if s.tu.faceB = some k then some .b else none

/-- GET ROAD k (R125). -/
def replyRoad (k : Nat) (s : State) : Reply :=
  within Config.maxRoads k (.getRoad k (Table.find s.tu.roads k) (s.facingEnd k))

/-- GET SHOW n (R138). -/
def replyShow (n : Nat) (s : State) : Reply :=
  within Config.maxShows n (.getShow n ((s.show? n).map fun w => {
    record := w, legLeft := s.left w.legTimer, dwellLeft := s.left w.dwellTimer, coolLeft := s.left w.coolTimer
    place := placeOf (fun m => m == n) s.vu.waiting }))

/-- One line of GET BOARD (R148). -/
def State.boardLineView (s : State) (b l : Nat) : BoardLineView :=
  let r := (s.board b).line l
  { source := r.source, composed := s.lineText b l, acked := r.acked
    place := placeOf (fun e => e == (b, l)) s.vu.boardQueue }

/-- GET BOARD b (R148). A board whose probe is due or in flight shows no time to its next probe (the model's choice,
log 53). -/
def replyBoard (b : Nat) (s : State) : Reply :=
  if 1 ≤ b ∧ b ≤ Config.maxBoards then
    .ok (.getBoard b (s.board b).online (s.left (s.board b).probeTimer) ([1, 2, 3, 4].map (s.boardLineView b)))
  else .no .range none

/-- GET LINK (R156): after the reply the lost count becomes 0. -/
def cmdGetLink (s : State) : State × Reply :=
  let h := s.hl
  ({ s with hl := { h with lost := 0 } },
    .ok (.getLink h.speed h.classes h.reports.length h.overflow h.buffer.length h.owed h.lost))

/-- GET AUX a (R156). -/
def replyAux (a : Nat) (s : State) : Reply :=
  within 16 a (.getAux a ((s.hl.auxOut[a]?).getD false) ((s.hl.auxIn[a]?).getD false))

end Sys2Proof.Machine
end

