-- ==== Sys2Proof/Machine/Parser.lean ====
section
/-! DEFINITION. From the text of a complete line to the command it spells (R153, R157). -/

namespace Sys2Proof.Machine

open Sys2Proof

/-! ## Words (R153) -/

/-- Splits a line into words at spaces, a quoted text staying whole; the flag says that a quote is left open.
The arguments are the word so far, backwards, and whether a quote is open. -/
def splitWords : Text → Bool → Text → List Text × Bool
  | w, q, [] => (if w = [] then [] else [w.reverse], q)
  | w, q, c :: rest =>
    if c = '"' then splitWords (c :: w) (!q) rest
    else if c = ' ' ∧ q = false then
      let out := splitWords [] false rest
      (if w = [] then out.1 else w.reverse :: out.1, out.2)
    else splitWords (c :: w) q rest

/-- Reads one number of a command. -/
def one (t : Text) (mk : Nat → Instr) : Except Code Instr :=
  match readNat t with
  | .ok n => .ok (mk n)
  | .error c => .error c

/-- Reads two numbers of a command: the form of both comes before any range (R153). -/
def two (t u : Text) (mk : Nat → Nat → Instr) : Except Code Instr :=
  match readNat t, readNat u with
  | .ok a, .ok b => .ok (mk a b)
  | .error .badForm, _ | _, .error .badForm => .error .badForm
  | .error c, _ | _, .error c => .error c

/-- A word is due, and a number does not fit (R153). -/
def wordDue (t : Text) (i : Except Code Instr) : Except Code Instr :=
  if (readNumber t).isSome then .error .badForm else i

/-! ## Arguments -/

/-- NAME=value, split at the first equals sign (R157). -/
def readAssign : Text → Option (Text × Text)
  | [] => none
  | '=' :: rest => some ([], rest)
  | c :: rest =>
    match readAssign rest with
    | some (n, v) => some (c :: n, v)
    | none => none

/-- Fields or settings: each NAME=value with a name (R157). -/
def readAssigns : List Text → Option (List (Text × Text))
  | [] => some []
  | t :: rest =>
    match readAssign t, readAssigns rest with
    | some (n, v), some l => if n = [] then none else some ((n, v) :: l)
    | _, _ => none

/-- A number that names a record, or none for one that is signed or broken and so names no record: the rule that owns
the command judges its range (R10). -/
def readNaming (t : Text) : Except Code (Option Nat) :=
  match readNumber t with
  | none => .error .badForm
  | some n =>
    if n.tooLong then .error .range
    else if n.negative || n.fraction.isSome then .ok none
    else .ok (some (digitsValue n.whole))

/-- The record a definition or a query of terminals names. -/
def readRecord (terminal : Bool) (t : Text) : Except Code RecordRef :=
  if terminal then
    match splitAt '.' t with
    | [m, k] =>
      match readNaming m, readNaming k with
      | .ok (some a), .ok (some b) => .ok (.terminal a b)
      | .ok _, .ok _ => .ok .other
      | .error .badForm, _ | _, .error .badForm => .error .badForm
      | .error c, _ | _, .error c => .error c
    | _ => .error .badForm
  else
    match readNaming t with
    | .ok (some n) => .ok (.num n)
    | .ok none => .ok .other
    | .error c => .error c

/-- The class names (R155). -/
def classWords : List (String × ReportClass) :=
  [("SEC", .sec), ("POINT", .point), ("SIGNAL", .signal), ("ROUTE", .route), ("TRAIN", .train), ("TURN", .turn),
   ("SHOW", .show), ("BOARD", .board), ("CHAIN", .chain), ("AUX", .aux), ("SYS", .sys)]

/-- A word that can stand for a class: not a missing word, and no number (R153). -/
def classForm (t : Text) : Bool := t != [] && (readNumber t).isNone

/-- One word of TELL (R154); a word that is no class word with a sign in front does not fit the form (R153). -/
def readTellWord : Text → TellWord
  | '+' :: rest => if classForm rest then .enable (pick classWords rest) else .unsigned
  | '-' :: rest => if classForm rest then .disable (pick classWords rest) else .unsigned
  | _ => .unsigned

/-- The force words (R111). -/
def forceWords : List (String × Force) :=
  [("NONE", .none), ("OFF", .off), ("FULL-POS", .fullPos), ("FULL-NEG", .fullNeg), ("FLOAT", .float)]

/-! ## The commands of R153's table -/

/-- DEF after its first word. -/
def parseDef : List Text → Except Code Instr
  | [] => .error .badForm
  | kind :: args =>
    let build := fun (r : RecordRef) (rest : List Text) =>
      match rest with
      | [] => Except.error Code.badForm
      | [w] =>
        if isWord w "DELETE" then .ok (Instr.defDelete kind r)
        else match readAssigns [w] with
          | some fs => .ok (.define kind r fs)
          | none => .error .badForm
      | rest => match readAssigns rest with
        | some fs => .ok (.define kind r fs)
        | none => .error .badForm
    if isWord kind "TURNTABLE" then build .unnamed args
    else if (readNumber kind).isSome then .error .badForm
    else
      match args with
      | [] => .error .badForm
      | n :: rest =>
        match readRecord (isWord kind "TERMINAL") n, build .unnamed rest with
        | .error c, .ok _ => .error c
        | _, .error c => .error c
        | .ok r, .ok _ => build r rest

/-- GET with one number. -/
def getNumbered : List (String × (Nat → Instr)) :=
  [("SECTION", .getSection), ("MODULE", .getModule), ("POINT", .getPoint), ("ROUTE", .getRoute),
   ("SIGNAL", .getSignal), ("TRAIN", .getTrain), ("CHANNEL", .getChannel), ("ROAD", .getRoad),
   ("SHOW", .getShow), ("BOARD", .getBoard), ("AUX", .getAux)]

/-- GET of one object. -/
def getPlain : List (String × Instr) :=
  [("CHAIN", .getChain), ("SUPPLY", .getSupply), ("TIMEBASE", .getTimebase), ("TURNTABLE", .getTurntable),
   ("LINK", .getLink)]

/-- GET of a kind word that is unknown: the words fit GET kind and GET kind n, or they do not (R153, log 14). -/
def getUnknown (kind : Text) (args : List Text) : Except Code Instr :=
  if (readNumber kind).isSome then .error .badForm
  else match args with
    | [] => .error .unknown
    | [n] =>
      match readNumber n with
      | none => .error .badForm
      | some k => if k.tooLong then .error .range else .error .unknown
    | _ => .error .badForm

/-- GET after its first word (section 10.4). -/
def parseGet : List Text → Except Code Instr
  | [] => .error .badForm
  | kind :: args =>
    match pick getPlain kind, pick getNumbered kind with
    | some i, _ => if args = [] then .ok i else .error .badForm
    | none, some mk =>
      match args with
      | [n] => one n mk
      | _ => .error .badForm
    | none, none =>
      if isWord kind "TERMINAL" then
        match args with
        | [t] =>
          match readRecord true t with
          | .ok (.terminal m k) => .ok (.getTerminal m k)
          | .ok _ => .error .range
          | .error c => .error c
        | _ => .error .badForm
      else getUnknown kind args

/-- MODE after its first word. -/
def parseMode : List Text → Except Code Instr
  | [w] => if isWord w "RUN" then .ok .modeRun else if isWord w "CONFIG" then .ok .modeConfig else .error .badForm
  | _ => .error .badForm

/-- SETUP after its first word. -/
def parseSetup (args : List Text) : Except Code Instr :=
  match readAssigns args with
  | some (p :: ps) => .ok (.setup (p :: ps))
  | _ => .error .badForm

/-- ROUTE after its first word. -/
def parseRoute : List Text → Except Code Instr
  | [w, r] =>
    if isWord w "SET" then one r .routeSet
    else if isWord w "STORE" then one r .routeStore
    else if isWord w "CAN" then one r .routeCan
    else .error .badForm
  | _ => .error .badForm

/-- POINT after its first word. -/
def parsePoint : List Text → Except Code Instr
  | [p, w] =>
    match pick positionWords w with
    | some pos => one p fun n => .point n pos
    | none => .error .badForm
  | _ => .error .badForm

/-- Reads every number, the form of all before any range. -/
def readNats : List Text → Except Code (List Nat)
  | [] => .ok []
  | t :: rest =>
    match readNat t, readNats rest with
    | .ok n, .ok ns => .ok (n :: ns)
    | .error .badForm, _ | _, .error .badForm => .error .badForm
    | .error c, _ | _, .error c => .error c

/-- TRAIN n RUNLIST after its mode. -/
def parseRunlist (n : Text) (mode : RunMode) (rs : List Text) : Except Code Instr :=
  match readNats (n :: rs) with
  | .ok (k :: ks) => .ok (.trainRunlist k mode ks)
  | .ok [] => .error .badForm
  | .error c => .error c

/-- TRAIN n and one word. -/
def parseTrainWord (n w : Text) : Except Code Instr :=
  if isWord w "REVERSE" then one n .trainReverse
  else if isWord w "RELEASE" then one n .trainRelease
  else if isWord w "TAKE" then one n .trainTake
  else if isWord w "REMOVE" then one n .trainRemove
  else .error .badForm

/-- TRAIN n and a word with arguments. -/
def parseTrainArgs (n w : Text) (args : List Text) : Except Code Instr :=
  if isWord w "SPEED" then
    match args with
    | [v] => two n v .trainSpeed
    | _ => .error .badForm
  else if isWord w "PLACE" then
    match args with
    | [x, d, e] =>
      if isWord d "DIR" then wordDue e (two n x fun a b => .trainPlace a b (pick endWords e)) else .error .badForm
    | _ => .error .badForm
  else if isWord w "RUNLIST" then
    match args with
    | [] => .error .badForm
    | m :: rs =>
      if isWord m "ONCE" then parseRunlist n .once rs
      else if isWord m "LOOP" then parseRunlist n .loop rs
      else .error .badForm
  else .error .badForm

/-- TRAIN after its first word. -/
def parseTrain : List Text → Except Code Instr
  | [n, w] => parseTrainWord n w
  | n :: w :: a :: args => parseTrainArgs n w (a :: args)
  | _ => .error .badForm

/-- CHAN after its first word. -/
def parseChan : List Text → Except Code Instr
  | [c, w, f] =>
    if isWord w "FORCE" then wordDue f (one c fun n => .chanForce n (pick forceWords f)) else .error .badForm
  | _ => .error .badForm

/-- TURN after its first word. -/
def parseTurn : List Text → Except Code Instr
  | [w] => if isWord w "HOME" then .ok .turnHome else if isWord w "STOP" then .ok .turnStop else .error .badForm
  | [k, e] => wordDue e (one k fun n => .turn n (pick bridgeEndWords e) none)
  | [k, e, d] =>
    match pick [("CW", MoveDir.cw), ("CCW", MoveDir.ccw)] d with
    | some dir => wordDue e (one k fun n => .turn n (pick bridgeEndWords e) (some dir))
    | none => .error .badForm
  | _ => .error .badForm

/-- SHOW after its first word. -/
def parseShow : List Text → Except Code Instr
  | [n, w] =>
    if isWord w "ENABLE" then one n .showEnable
    else if isWord w "DISABLE" then one n .showDisable
    else if isWord w "ABORT" then one n .showAbort
    else .error .badForm
  | _ => .error .badForm

/-- BOARD with its source word read. -/
def boardWith (b l : Text) (src : Except Code SourceWord) : Except Code Instr :=
  match readNats [b, l], src with
  | .ok [x, y], .ok w => .ok (.boardSource x y w)
  | .error .badForm, _ | _, .error .badForm => .error .badForm
  | .error c, _ | _, .error c => .error c
  | _, _ => .error .badForm

/-- A number of a source word. -/
def sourceNumber (t : Text) (mk : Nat → SourceWord) : Except Code SourceWord :=
  match readNat t with
  | .ok n => .ok (mk n)
  | .error c => .error c

/-- BOARD after its first word. -/
def parseBoard : List Text → Except Code Instr
  | [b, l, q] =>
    match unquote q with
    | some t => two b l fun x y => .boardText x y t
    | none => .error .badForm
  | [b, l, w, v] =>
    if isWord w "SOURCE" ∧ isWord v "BLANK" then boardWith b l (.ok .blank) else .error .badForm
  | [b, l, w, v, n] =>
    if isWord w "SOURCE" ∧ isWord v "TRAIN" then boardWith b l (sourceNumber n .train)
    else if isWord w "SOURCE" ∧ isWord v "SHOW" then boardWith b l (sourceNumber n .show)
    else .error .badForm
  | _ => .error .badForm

/-- CHAIN after its first word. -/
def parseChain : List Text → Except Code Instr
  | [w] => if isWord w "RESET" then .ok .chainReset else .error .badForm
  | [w, m] =>
    if isWord w "MODE" then
      match pick [("NORMAL", ScanMode.normal), ("LAMP-TEST", ScanMode.lampTest)] m with
      | some x => .ok (.chainMode x)
      | none => .error .badForm
    else .error .badForm
  | _ => .error .badForm

/-- BAUD after its first word: 115200 and 230400 pass the five-digit bound (log 11). -/
def parseBaud : List Text → Except Code Instr
  | [n] => if isWord n "115200" then .ok (.baud 115200) else if isWord n "230400" then .ok (.baud 230400) else one n .baud
  | _ => .error .badForm

/-- AUX after its first word. -/
def parseAux : List Text → Except Code Instr
  | [a, v] => two a v .aux
  | _ => .error .badForm

/-- TIMEBASE after its first word. -/
def parseTimebase : List Text → Except Code Instr
  | [p] => one p .timebase
  | _ => .error .badForm

/-- TELL after its first word. -/
def parseTell (ws : List Text) : Except Code Instr :=
  let words := ws.map readTellWord
  if words = [] ∨ words.contains .unsigned then .error .badForm else .ok (.tell words)

/-- A command of one word. -/
def alone (i : Instr) (args : List Text) : Except Code Instr := if args = [] then .ok i else .error .badForm

/-- The command words, each with the form of what follows (section 10.4). -/
def commandWords : List (String × (List Text → Except Code Instr)) :=
  [("DEF", parseDef), ("MODE", parseMode), ("SETUP", parseSetup), ("GET", parseGet), ("ROUTE", parseRoute),
   ("POINT", parsePoint), ("TRAIN", parseTrain), ("TIMEBASE", parseTimebase), ("CHAN", parseChan),
   ("TURN", parseTurn), ("SHOW", parseShow), ("BOARD", parseBoard), ("AUX", parseAux), ("TELL", parseTell),
   ("CHAIN", parseChain), ("ESTOP", alone .estop), ("RESUME", alone .resume), ("SAVE", alone .save),
   ("RESET", alone .reset), ("BAUD", parseBaud)]

/-- The command a complete line spells, or the code of its refusal (R153). -/
def parseLine (t : Text) : Except Code Instr :=
  match splitWords [] false t with
  | ([], _) => .error .unknown
  | (w :: args, openQuote) =>
    match pick commandWords w with
    | none => .error .unknown
    | some form => if openQuote then .error .badForm else form args

end Sys2Proof.Machine
end

