-- ==== Sys2Proof/Machine/HostLink.lean ====
section
/-! DEFINITION. The host link (chapter 10): reception, the line buffer, the taking of commands, the transmitter,
and the two arbiters that act without a command (R147, R155; log 3). -/

namespace Sys2Proof.Machine

open Sys2Proof

/-- Changes the host link. -/
def State.setLink (s : State) (f : HostLink → HostLink) : State := { s with hl := f s.hl }

/-! ## The line buffer (R152) -/

/-- A line that ends joins the buffer; with four entries waiting it is owed a NO FULL, and beyond 255 owed it is
lost (R152). -/
def HostLink.join (h : HostLink) (e : BufferEntry) : HostLink :=
  if h.buffer.length < Config.bufferMax then { h with buffer := h.buffer ++ [e] }
  else if h.owed < Config.owedMax then { h with owed := h.owed + 1 }
  else { h with lost := min (h.lost + 1) Config.lostMax }

/-- The line in assembly is over. -/
def HostLink.clearLine (h : HostLink) : HostLink := { h with line := none, gapTimer := none }

/-- The mark of a line that ends with a fault (R152). -/
def markOf : LineFault → RefusalMark
  | .bad => .badForm
  | .long => .long
  | .late => .late

/-- The line ends by CR (R150, R152). -/
def HostLink.endLine (h : HostLink) : HostLink :=
  match h.line with
  | none => h
  | some a =>
    match a.fault with
    | some f => h.clearLine.join (.mark (markOf f))
    | none => if a.chars = [] then h.clearLine else h.clearLine.join (.line a.chars)

/-! ## Reception (R150, R151) -/

/-- Letters a to z are folded to A to Z. -/
def foldLetter (c : Char) : Char := if 97 ≤ c.toNat ∧ c.toNat ≤ 122 then Char.ofNat (c.toNat - 32) else c

/-- A fault arises: the first is kept (R150). -/
def Assembly.fail (a : Assembly) (f : LineFault) : Assembly := { a with fault := a.fault.or (some f) }

/-- A character other than LF and CR is taken into the line (R150). -/
def Assembly.take (a : Assembly) (c : Char) (framingError : Bool) : Assembly :=
  if framingError || !printable c then a.fail .bad
  else if Config.lineMax ≤ a.chars.length then a.fail .long
  else if a.fault.isSome then a
  else if c = '"' then { a with chars := a.chars ++ [c], inQuote := !a.inQuote }
  else { a with chars := a.chars ++ [if a.inQuote then c else foldLetter c] }

/-- The gap timer starts again while a line is in assembly (R151). -/
def restartGap (s : State) : State :=
  s.setLink fun h => { h with gapTimer := h.line.map fun _ => s.now + ms 2000 }

/-- A character arrives on RXD (R150). CR and LF with a framing error are characters with a framing error (the model's
choice, log 59). -/
def receive (code : Byte) (framingError : Bool) (s : State) : State :=
  if s.hl.rxBreak then s
  else
    let n := code.toNat
    if n = 10 ∧ framingError = false then restartGap s
    else if n = 13 ∧ framingError = false then restartGap (s.setLink HostLink.endLine)
    else restartGap (s.setLink fun h => { h with line := some ((h.line.getD {}).take (Char.ofNat n) framingError) })

/-- The gap timer expires: the line ends LATE (R151). -/
def gapExpiry (s : State) : State :=
  if s.hl.gapTimer.isSome then
    (s.expire s.hl.gapTimer).setLink fun h => h.clearLine.join (.mark .late)
  else s

/-- A break is detected (R151). -/
def breakDetected (s : State) : State :=
  if s.hl.rxBreak then s
  else (s.setLink fun h => { h.clearLine with rxBreak := true }).report .sysBreak

/-- RXD has returned high (R151). -/
def rxdHigh (s : State) : State := s.setLink fun h => { h with rxBreak := false }

/-! ## Commands (R153) -/

/-- The reply to a refusal mark (R153). -/
def markReply : RefusalMark → Reply
  | .badForm => .no .badForm none
  | .long => .no .long none
  | .late => .no .late none

/-- A command is handed to the rule that owns it: the state after it, and its reply (R153). The last arm is
the first word that is no command word; no event of the field, the boards or the clock is a line. -/
def runHost (i : Instr) (s : State) : State × Reply :=
  match i with
  | .refusalMark m => (s, markReply m)
  | .define k r fs => cmdDefine k r fs s
  | .defDelete k r => cmdDefDelete k r s
  | .modeRun => arrivalReply cmdModeRun s
  | .modeConfig => cmdModeConfig s
  | .setup ps => cmdSetup ps s
  | .getSection x => (s, replySection x s)
  | .getModule m => (s, replyModule m s)
  | .getTerminal m t => (s, replyTerminal m t s)
  | .getChain => (s, replyChain s)
  | .getPoint p => (s, replyPoint p s)
  | .getSupply => (s, replySupply s)
  | .getRoute r => (s, replyRoute r s)
  | .getSignal g => (s, replySignal g s)
  | .getTrain n => (s, replyTrain n s)
  | .getTimebase => (s, replyTimebase s)
  | .getChannel c => (s, replyChannel c s)
  | .getTurntable => (s, replyTurntable s)
  | .getRoad k => (s, replyRoad k s)
  | .getShow n => (s, replyShow n s)
  | .getBoard b => (s, replyBoard b s)
  | .getLink => cmdGetLink s
  | .getAux a => (s, replyAux a s)
  | .routeSet r => arrivalReply (cmdRouteSet r) s
  | .routeStore r => arrivalReply (cmdRouteStore r) s
  | .routeCan r => arrivalReply (cmdRouteCan r) s
  | .point p pos => arrivalReply (cmdPoint p pos) s
  | .trainPlace n x e => arrivalReply (cmdTrainPlace n x e) s
  | .trainSpeed n v => arrivalReply (cmdTrainSpeed n v) s
  | .trainReverse n => arrivalReply (cmdTrainReverse n) s
  | .trainRelease n => arrivalReply (cmdTrainRelease n) s
  | .trainTake n => arrivalReply (cmdTrainTake n) s
  | .trainRemove n => arrivalReply (cmdTrainRemove n) s
  | .trainRunlist n m rs => arrivalReply (cmdTrainRunlist n m rs) s
  | .timebase p => cmdTimebase p s
  | .chanForce c f => cmdChanForce c f s
  | .turn k e d => arrivalReply (cmdTurn k e d) s
  | .turnHome => arrivalReply cmdTurnHome s
  | .turnStop => arrivalReply cmdTurnStop s
  | .showEnable n => arrivalReply (cmdShowEnable n) s
  | .showDisable n => arrivalReply (cmdShowDisable n) s
  | .showAbort n => arrivalReply (cmdShowAbort n) s
  | .boardText b l t => cmdBoardText b l t s
  | .boardSource b l w => cmdBoardSource b l w s
  | .aux a v => cmdAux a v s
  | .tell ws => cmdTell ws s
  | .chainReset => cmdChainReset s
  | .chainMode m => cmdChainMode m s
  | .estop => arrivalReply cmdEstop s
  | .resume => arrivalReply cmdResume s
  | .save => cmdSave s
  | .reset => cmdReset s
  | .baud n => cmdBaud n s
  | _ => (s, .no .unknown none)

/-- An entry taken from the buffer is judged (R153). -/
def runEntry (e : BufferEntry) (s : State) : State × Reply :=
  match e with
  | .mark m => (s, markReply m)
  | .command i => runHost i s
  | .line t =>
    match parseLine t with
    | .ok i => runHost i s
    | .error c => (s, .no c none)

/-- A reply is placed in the reply slot (R153). -/
def placeReply (out : State × Reply) : State := out.1.setLink fun h => { h with slot := some out.2 }

/-- The oldest buffer entry is taken: removed, judged, and its reply placed in the slot (R153). -/
def takeEntry (s : State) : State :=
  match s.hl.buffer with
  | [] => s
  | e :: rest => placeReply (runEntry e (s.setLink fun h => { h with buffer := rest }))

/-! ## The transmitter (R155) -/

/-- The oldest report leaves the queue for the transmitter; with the overflow mark set, the mark clears and
! SYS OVERFLOW takes the place freed (R155). -/
def HostLink.sendReport (h : HostLink) : HostLink :=
  match h.reports with
  | [] => h
  | r :: rest =>
    let h1 := { h with tx := some (.report r), reports := rest, overflow := false }
    if h.overflow then h1.report .sysOverflow else h1

/-- The transmitter, free, chooses the next line: an owed NO FULL, the reply, the oldest report (R155). -/
def HostLink.choose (h : HostLink) : HostLink :=
  if 0 < h.owed then { h with tx := some .owedFull, owed := h.owed - 1 }
  else
    match h.slot with
    | some r => { h with tx := some (.reply r), slot := none }
    | none => h.sendReport

/-- One action of the host link's arbiters: an entry is taken when the slot is empty, or the transmitter chooses
when it is free (R153, R155). -/
def pumpStep (s : State) : State :=
  if s.hl.slot = none ∧ s.hl.buffer ≠ [] then takeEntry s
  else if s.hl.tx = none then s.setLink HostLink.choose
  else s

/-- The host link's arbiters act until they rest: a take, a choice and a take at most. -/
def pump (s : State) : State := pumpStep (pumpStep (pumpStep (pumpStep s)))

/-- Both arbiters of the part act: the host link's and the board link's (log 3). -/
def arbitrate (s : State) : State := chooseTransfer (pump s)

/-- A host command that comes as a row of the table: it takes its place in the line buffer as its line would
(log 3). -/
def hostLine (i : Instr) (s : State) : State := s.setLink fun h => h.join (.command i)

/-- A refusal mark or a line that comes as a row of the table. -/
def hostMark (m : RefusalMark) (s : State) : State := s.setLink fun h => h.join (.mark m)

/-! ## The end of a line sent (R149, R155, R162) -/

/-- A line has been sent to its end: a speed accepted takes effect with the end of its reply (R149). -/
def lineSent (s : State) : State :=
  match s.hl.tx with
  | some (.reply (.ok (.baud n))) => s.setLink fun h => { h with tx := none, speed := n }
  | _ => s.setLink fun h => { h with tx := none }

/-- The end of the stop bit of the OK BAUD reply (R149). -/
def baudChange (s : State) : State :=
  match s.hl.tx with
  | some (.reply (.ok (.baud n))) => s.setLink fun h => { h with speed := n }
  | _ => s

/-- The line being sent is OK RESET (R162). -/
def State.sendingReset (s : State) : Bool := s.hl.tx == some (.reply (.ok .reset))

end Sys2Proof.Machine
end

