-- ==== Sys2Proof/Machine/Commands.lean ====
section
/-! DEFINITION. The meanings of the rows that are lines of the host (R153's table), one for each row. -/

namespace Sys2Proof.Machine

open Sys2Proof

/-- What every meaning answers. -/
abbrev Answered := Host.Outcome State Fault Refusal

/-- An event: the arbiters act, the event acts, the arbiters act. A part without power takes none (log 22). -/
def event (f : State → State) (s : State) : Answered :=
  .next (if s.powered then arbitrate (f (arbitrate s)) else s)

/-- REFUSAL_MARK (R153). -/
def execRefusalMark (m : RefusalMark) (s : State) : Answered := event (hostMark m) s

/-- UNKNOWN_COMMAND (R153). -/
def execUnknownCommand (s : State) : Answered := event (hostLine (.unknownCommand)) s

/-- DEF (R9, R10). -/
def execDefine (kind : Text) (record : RecordRef) (fields : List (Text × Text)) (s : State) : Answered := event (hostLine (.define kind record fields)) s

/-- DEF_DELETE (R9, R10). -/
def execDefDelete (kind : Text) (record : RecordRef) (s : State) : Answered := event (hostLine (.defDelete kind record)) s

/-- MODE_RUN (R12, R13). -/
def execModeRun (s : State) : Answered := event (hostLine (.modeRun)) s

/-- MODE_CONFIG (R14). -/
def execModeConfig (s : State) : Answered := event (hostLine (.modeConfig)) s

/-- SETUP (R154). -/
def execSetup (pairs : List (Text × Text)) (s : State) : Answered := event (hostLine (.setup pairs)) s

/-- GET_SECTION (R4). -/
def execGetSection (x : Nat) (s : State) : Answered := event (hostLine (.getSection x)) s

/-- GET_MODULE (R21). -/
def execGetModule (m : Nat) (s : State) : Answered := event (hostLine (.getModule m)) s

/-- GET_TERMINAL (R23). -/
def execGetTerminal (m : Nat) (t : Nat) (s : State) : Answered := event (hostLine (.getTerminal m t)) s

/-- GET_CHAIN (R36). -/
def execGetChain (s : State) : Answered := event (hostLine (.getChain)) s

/-- GET_POINT (R40). -/
def execGetPoint (p : Nat) (s : State) : Answered := event (hostLine (.getPoint p)) s

/-- GET_SUPPLY (R44). -/
def execGetSupply (s : State) : Answered := event (hostLine (.getSupply)) s

/-- GET_ROUTE (R53). -/
def execGetRoute (r : Nat) (s : State) : Answered := event (hostLine (.getRoute r)) s

/-- GET_SIGNAL (R79). -/
def execGetSignal (g : Nat) (s : State) : Answered := event (hostLine (.getSignal g)) s

/-- GET_TRAIN (R89). -/
def execGetTrain (n : Nat) (s : State) : Answered := event (hostLine (.getTrain n)) s

/-- GET_TIMEBASE (R106). -/
def execGetTimebase (s : State) : Answered := event (hostLine (.getTimebase)) s

/-- GET_CHANNEL (R108). -/
def execGetChannel (c : Nat) (s : State) : Answered := event (hostLine (.getChannel c)) s

/-- GET_TURNTABLE (R126). -/
def execGetTurntable (s : State) : Answered := event (hostLine (.getTurntable)) s

/-- GET_ROAD (R125). -/
def execGetRoad (k : Nat) (s : State) : Answered := event (hostLine (.getRoad k)) s

/-- GET_SHOW (R138). -/
def execGetShow (n : Nat) (s : State) : Answered := event (hostLine (.getShow n)) s

/-- GET_BOARD (R148). -/
def execGetBoard (b : Nat) (s : State) : Answered := event (hostLine (.getBoard b)) s

/-- GET_LINK (R156). -/
def execGetLink (s : State) : Answered := event (hostLine (.getLink)) s

/-- GET_AUX (R156). -/
def execGetAux (a : Nat) (s : State) : Answered := event (hostLine (.getAux a)) s

/-- ROUTE_SET (R59). -/
def execRouteSet (r : Nat) (s : State) : Answered := event (hostLine (.routeSet r)) s

/-- ROUTE_STORE (R60). -/
def execRouteStore (r : Nat) (s : State) : Answered := event (hostLine (.routeStore r)) s

/-- ROUTE_CAN (R68). -/
def execRouteCan (r : Nat) (s : State) : Answered := event (hostLine (.routeCan r)) s

/-- POINT (R51). -/
def execPoint (p : Nat) (pos : PointPos) (s : State) : Answered := event (hostLine (.point p pos)) s

/-- TRAIN_PLACE (R93). -/
def execTrainPlace (n : Nat) (x : Nat) (e : Option EndName) (s : State) : Answered := event (hostLine (.trainPlace n x e)) s

/-- TRAIN_SPEED (R102). -/
def execTrainSpeed (n : Nat) (v : Nat) (s : State) : Answered := event (hostLine (.trainSpeed n v)) s

/-- TRAIN_REVERSE (R103). -/
def execTrainReverse (n : Nat) (s : State) : Answered := event (hostLine (.trainReverse n)) s

/-- TRAIN_RELEASE (R91). -/
def execTrainRelease (n : Nat) (s : State) : Answered := event (hostLine (.trainRelease n)) s

/-- TRAIN_TAKE (R102). -/
def execTrainTake (n : Nat) (s : State) : Answered := event (hostLine (.trainTake n)) s

/-- TRAIN_REMOVE (R94). -/
def execTrainRemove (n : Nat) (s : State) : Answered := event (hostLine (.trainRemove n)) s

/-- TRAIN_RUNLIST (R104). -/
def execTrainRunlist (n : Nat) (mode : RunMode) (routes : List Nat) (s : State) : Answered := event (hostLine (.trainRunlist n mode routes)) s

/-- TIMEBASE (R106). -/
def execTimebase (p : Nat) (s : State) : Answered := event (hostLine (.timebase p)) s

/-- CHAN_FORCE (R111). -/
def execChanForce (c : Nat) (f : Option Force) (s : State) : Answered := event (hostLine (.chanForce c f)) s

/-- TURN (R129). -/
def execTurn (k : Nat) (e : Option BridgeEnd) (dir : Option MoveDir) (s : State) : Answered := event (hostLine (.turn k e dir)) s

/-- TURN_HOME (R128). -/
def execTurnHome (s : State) : Answered := event (hostLine (.turnHome)) s

/-- TURN_STOP (R134). -/
def execTurnStop (s : State) : Answered := event (hostLine (.turnStop)) s

/-- SHOW_ENABLE (R143). -/
def execShowEnable (n : Nat) (s : State) : Answered := event (hostLine (.showEnable n)) s

/-- SHOW_DISABLE (R143). -/
def execShowDisable (n : Nat) (s : State) : Answered := event (hostLine (.showDisable n)) s

/-- SHOW_ABORT (R143). -/
def execShowAbort (n : Nat) (s : State) : Answered := event (hostLine (.showAbort n)) s

/-- BOARD_TEXT (R145). -/
def execBoardText (b : Nat) (l : Nat) (text : Text) (s : State) : Answered := event (hostLine (.boardText b l text)) s

/-- BOARD_SOURCE (R145). -/
def execBoardSource (b : Nat) (l : Nat) (src : SourceWord) (s : State) : Answered := event (hostLine (.boardSource b l src)) s

/-- AUX (R156). -/
def execAux (a : Nat) (v : Nat) (s : State) : Answered := event (hostLine (.aux a v)) s

/-- TELL (R154). -/
def execTell (words : List TellWord) (s : State) : Answered := event (hostLine (.tell words)) s

/-- CHAIN_RESET (R26). -/
def execChainReset (s : State) : Answered := event (hostLine (.chainReset)) s

/-- CHAIN_MODE (R37). -/
def execChainMode (m : ScanMode) (s : State) : Answered := event (hostLine (.chainMode m)) s

/-- ESTOP (R158). -/
def execEstop (s : State) : Answered := event (hostLine (.estop)) s

/-- RESUME (R159). -/
def execResume (s : State) : Answered := event (hostLine (.resume)) s

/-- SAVE (R161). -/
def execSave (s : State) : Answered := event (hostLine (.save)) s

/-- RESET (R162). -/
def execReset (s : State) : Answered := event (hostLine (.reset)) s

/-- BAUD (R149). -/
def execBaud (n : Nat) (s : State) : Answered := event (hostLine (.baud n)) s

end Sys2Proof.Machine
end

