-- ==== Sys2Proof/Machine/Events.lean ====
section
/-! DEFINITION. The meanings of the rows that are no line of the host: power, the link's pins and timers, the
field chain, the timers, the clock, the turntable, the boards, the stop loop and the store. -/

namespace Sys2Proof.Machine

open Sys2Proof

/-! ## Power and start-up (chapter 11) -/

/-- POWER_ON (R162, R163), with the loop's first agreed value: power is applied, whatever stood before
(log 21). -/
def execPowerOn (loop : LoopValue) (s : State) : Answered := .next (powerOn loop s)

/-- START_UP_SEQUENCE (R162), with the loop's first agreed value: the sequence of a RESET (log 21). -/
def execStartUpSequence (loop : LoopValue) (s : State) : Answered :=
  .next (if s.powered then resetSequence loop s else s)

/-- LOSS_OF_POWER (R161). -/
def execLossOfPower (s : State) : Answered := .next (losePower s)

/-! ## The host link's pins and timers (chapter 10) -/

/-- CHARACTER_RECEIVED (R150). -/
def execCharacterReceived (code : Byte) (framingError : Bool) (s : State) : Answered :=
  event (receive code framingError) s

/-- GAP_TIMER_EXPIRY (R151). -/
def execGapTimerExpiry (s : State) : Answered := event gapExpiry s

/-- BREAK (R151). -/
def execRxdBreak (s : State) : Answered := event breakDetected s

/-- RXD_RETURNED_HIGH (R151). -/
def execRxdReturnedHigh (s : State) : Answered := event rxdHigh s

/-- LINE_SENT (R149, R155, R162): the transmitter becomes free; the end of OK RESET begins the start-up
sequence, which ends the action. -/
def execLineSent (s : State) : Answered :=
  if s.powered && (arbitrate s).sendingReset then .next (resetSequence s.ss.loop (arbitrate s))
  else event lineSent s

/-- BAUD_CHANGE (R149). -/
def execBaudChange (s : State) : Answered := event baudChange s

/-! ## The field chain (chapter 2), and every timer and edge -/

/-- CH_RESET_END (R26, R27): the reset pulse has lasted its eight clocks. -/
def execChResetEnd (s : State) : Answered := event resetEnd s

/-- ENUMERATION_WORD (R27): one word of the enumeration has been exchanged, with the cells returned. -/
def execEnumerationWord (cells : List Bool) (s : State) : Answered := event (enumerationWord cells) s

/-- RETRY_TIMER_EXPIRY (R29). -/
def execRetryTimerExpiry (s : State) : Answered := event retryExpiry s

/-- SCAN_TIMER_EXPIRY (R28). -/
def execScanTimerExpiry (s : State) : Answered := event scanExpiry s

/-- CAPTURE_DONE (R28). -/
def execCaptureDone (s : State) : Answered := event captureDone s

/-- SHIFT_END (R28 to R35): the image has been exchanged, with the cells returned. -/
def execShiftEnd (cells : List Bool) (s : State) : Answered := event (shiftEnd cells) s

/-- UPDATE_COMPLETE (R28, R31, R46). -/
def execUpdateComplete (s : State) : Answered := event updateComplete s

/-- FLASH_PHASE_TOGGLE (R25). -/
def execFlashPhaseToggle (s : State) : Answered := event flashToggle s

/-- RECHARGE_TIMER_EXPIRY (R44). -/
def execRechargeTimerExpiry (s : State) : Answered := event (arrival rechargeExpiry) s

/-- DETECTION_TIMEOUT (R47). -/
def execDetectionTimeout (p : Nat) (s : State) : Answered := event (arrival (detectionTimeout p)) s

/-- SETTING_TIMEOUT (R66). -/
def execSettingTimeout (r : Nat) (s : State) : Answered := event (arrival (settingExpiry r)) s

/-- APPROACH_RELEASE_TIMER_EXPIRY (R69). -/
def execApproachReleaseTimerExpiry (r : Nat) (s : State) : Answered := event (arrival (approachExpiry r)) s

/-- REQUEST_EXPIRY (R60, R61). -/
def execRequestExpiry (r : Nat) (s : State) : Answered := event (arrival (requestExpiry r)) s

/-- OVERLAP_TIMER_EXPIRY (R73). -/
def execOverlapTimerExpiry (r : Nat) (s : State) : Answered := event (arrival (overlapExpiry r)) s

/-- DWELL_TIMER_EXPIRY (R74). -/
def execDwellTimerExpiry (r : Nat) (s : State) : Answered := event (arrival (dwellExpiry r)) s

/-- LOST_TIMER_EXPIRY (R99). -/
def execLostTimerExpiry (n : Nat) (s : State) : Answered := event (arrival (lostExpiry n)) s

/-- COUNTER_ZERO (R106, R109). -/
def execCounterZero (s : State) : Answered := event counterZero s

/-- GOVERNOR_TICK (R112 to R123). -/
def execGovernorTick (s : State) : Answered := event (arrival governorTick) s

/-- STEP (R130, R132, R133). -/
def execBridgeStep (s : State) : Answered := event (arrival bridgeStep) s

/-- RATE_UPDATE (R132). -/
def execRateUpdate (s : State) : Answered := event (arrival rateUpdate) s

/-- THOME_EDGE (R128, R133). -/
def execThomeEdge (s : State) : Answered := event (arrival homeEdge) s

/-- LEG_TIMER_EXPIRY (R141). -/
def execLegTimerExpiry (n : Nat) (s : State) : Answered := event (arrival (legExpiry n)) s

/-- SHOW_DWELL_TIMER_EXPIRY (R142). -/
def execShowDwellTimerExpiry (n : Nat) (s : State) : Answered := event (arrival (showDwellExpiry n)) s

/-- COOL_DOWN_TIMER_EXPIRY (R144). -/
def execCoolDownTimerExpiry (n : Nat) (s : State) : Answered := event (arrival (coolExpiry n)) s

/-- BOARD_LINE_JUDGEMENT (R146). -/
def execBoardLineJudgement (s : State) : Answered := event judgeLines s

/-- FRAME_SENT (R147). -/
def execFrameSent (s : State) : Answered := event frameSent s

/-- REPLY_FRAME (R147, R148). -/
def execReplyFrame (bytes : List Byte) (s : State) : Answered := event (replyFrame bytes) s

/-- REPLY_TIMER_EXPIRY (R147). -/
def execReplyTimerExpiry (s : State) : Answered := event replyTimeout s

/-- PROBE_TIMER_EXPIRY (R148). -/
def execProbeTimerExpiry (b : Nat) (s : State) : Answered := event (probeExpiry b) s

/-- STOPLOOP_CHANGE (R158). -/
def execStoploopChange (v : LoopValue) (s : State) : Answered := event (arrival (loopChange v)) s

/-- SAVE_END (R161), with the outcome of the read-back. -/
def execSaveEnd (good : Bool) (s : State) : Answered := event (saveEnd good) s

/-- What a step does with no command waiting: 1 ms passes and the arbiters act (log 1). -/
def idle (s : State) : Answered :=
  .next (if s.powered then arbitrate { s with now := s.now + ms 1 } else s)

end Sys2Proof.Machine
end

