-- ==== Sys2Proof/Machine/Dispatch.lean ====
section
/-! DEFINITION. One arm for each row of the command table. -/

namespace Sys2Proof.Machine

open Sys2Proof

/-- The effect of a command on everything but the queue. -/
def exec (i : Instr) (s : State) : Host.Outcome State Fault Refusal :=
  match i with
  | .powerOn loop => Sys2Proof.Machine.execPowerOn loop s
  | .startUpSequence loop => Sys2Proof.Machine.execStartUpSequence loop s
  | .characterReceived code framingError => Sys2Proof.Machine.execCharacterReceived code framingError s
  | .gapTimerExpiry => Sys2Proof.Machine.execGapTimerExpiry s
  | .rxdBreak => Sys2Proof.Machine.execRxdBreak s
  | .lineSent => Sys2Proof.Machine.execLineSent s
  | .baudChange => Sys2Proof.Machine.execBaudChange s
  | .refusalMark m => Sys2Proof.Machine.execRefusalMark m s
  | .unknownCommand => Sys2Proof.Machine.execUnknownCommand s
  | .define kind record fields => Sys2Proof.Machine.execDefine kind record fields s
  | .defDelete kind record => Sys2Proof.Machine.execDefDelete kind record s
  | .modeRun => Sys2Proof.Machine.execModeRun s
  | .modeConfig => Sys2Proof.Machine.execModeConfig s
  | .setup pairs => Sys2Proof.Machine.execSetup pairs s
  | .getSection x => Sys2Proof.Machine.execGetSection x s
  | .getModule m => Sys2Proof.Machine.execGetModule m s
  | .getTerminal m t => Sys2Proof.Machine.execGetTerminal m t s
  | .getChain => Sys2Proof.Machine.execGetChain s
  | .getPoint p => Sys2Proof.Machine.execGetPoint p s
  | .getSupply => Sys2Proof.Machine.execGetSupply s
  | .getRoute r => Sys2Proof.Machine.execGetRoute r s
  | .getSignal g => Sys2Proof.Machine.execGetSignal g s
  | .getTrain n => Sys2Proof.Machine.execGetTrain n s
  | .getTimebase => Sys2Proof.Machine.execGetTimebase s
  | .getChannel c => Sys2Proof.Machine.execGetChannel c s
  | .getTurntable => Sys2Proof.Machine.execGetTurntable s
  | .getRoad k => Sys2Proof.Machine.execGetRoad k s
  | .getShow n => Sys2Proof.Machine.execGetShow n s
  | .getBoard b => Sys2Proof.Machine.execGetBoard b s
  | .getLink => Sys2Proof.Machine.execGetLink s
  | .getAux a => Sys2Proof.Machine.execGetAux a s
  | .routeSet r => Sys2Proof.Machine.execRouteSet r s
  | .routeStore r => Sys2Proof.Machine.execRouteStore r s
  | .routeCan r => Sys2Proof.Machine.execRouteCan r s
  | .point p pos => Sys2Proof.Machine.execPoint p pos s
  | .trainPlace n x e => Sys2Proof.Machine.execTrainPlace n x e s
  | .trainSpeed n v => Sys2Proof.Machine.execTrainSpeed n v s
  | .trainReverse n => Sys2Proof.Machine.execTrainReverse n s
  | .trainRelease n => Sys2Proof.Machine.execTrainRelease n s
  | .trainTake n => Sys2Proof.Machine.execTrainTake n s
  | .trainRemove n => Sys2Proof.Machine.execTrainRemove n s
  | .trainRunlist n mode routes => Sys2Proof.Machine.execTrainRunlist n mode routes s
  | .timebase p => Sys2Proof.Machine.execTimebase p s
  | .chanForce c f => Sys2Proof.Machine.execChanForce c f s
  | .turn k e dir => Sys2Proof.Machine.execTurn k e dir s
  | .turnHome => Sys2Proof.Machine.execTurnHome s
  | .turnStop => Sys2Proof.Machine.execTurnStop s
  | .showEnable n => Sys2Proof.Machine.execShowEnable n s
  | .showDisable n => Sys2Proof.Machine.execShowDisable n s
  | .showAbort n => Sys2Proof.Machine.execShowAbort n s
  | .boardText b l text => Sys2Proof.Machine.execBoardText b l text s
  | .boardSource b l src => Sys2Proof.Machine.execBoardSource b l src s
  | .aux a v => Sys2Proof.Machine.execAux a v s
  | .tell words => Sys2Proof.Machine.execTell words s
  | .chainReset => Sys2Proof.Machine.execChainReset s
  | .chainMode m => Sys2Proof.Machine.execChainMode m s
  | .estop => Sys2Proof.Machine.execEstop s
  | .resume => Sys2Proof.Machine.execResume s
  | .save => Sys2Proof.Machine.execSave s
  | .reset => Sys2Proof.Machine.execReset s
  | .baud n => Sys2Proof.Machine.execBaud n s
  | .chResetEnd => Sys2Proof.Machine.execChResetEnd s
  | .enumerationWord cells => Sys2Proof.Machine.execEnumerationWord cells s
  | .retryTimerExpiry => Sys2Proof.Machine.execRetryTimerExpiry s
  | .scanTimerExpiry => Sys2Proof.Machine.execScanTimerExpiry s
  | .captureDone => Sys2Proof.Machine.execCaptureDone s
  | .shiftEnd cells => Sys2Proof.Machine.execShiftEnd cells s
  | .updateComplete => Sys2Proof.Machine.execUpdateComplete s
  | .flashPhaseToggle => Sys2Proof.Machine.execFlashPhaseToggle s
  | .rechargeTimerExpiry => Sys2Proof.Machine.execRechargeTimerExpiry s
  | .detectionTimeout p => Sys2Proof.Machine.execDetectionTimeout p s
  | .settingTimeout r => Sys2Proof.Machine.execSettingTimeout r s
  | .approachReleaseTimerExpiry r => Sys2Proof.Machine.execApproachReleaseTimerExpiry r s
  | .requestExpiry r => Sys2Proof.Machine.execRequestExpiry r s
  | .overlapTimerExpiry r => Sys2Proof.Machine.execOverlapTimerExpiry r s
  | .dwellTimerExpiry r => Sys2Proof.Machine.execDwellTimerExpiry r s
  | .lostTimerExpiry n => Sys2Proof.Machine.execLostTimerExpiry n s
  | .counterZero => Sys2Proof.Machine.execCounterZero s
  | .governorTick => Sys2Proof.Machine.execGovernorTick s
  | .bridgeStep => Sys2Proof.Machine.execBridgeStep s
  | .rateUpdate => Sys2Proof.Machine.execRateUpdate s
  | .thomeEdge => Sys2Proof.Machine.execThomeEdge s
  | .legTimerExpiry n => Sys2Proof.Machine.execLegTimerExpiry n s
  | .showDwellTimerExpiry n => Sys2Proof.Machine.execShowDwellTimerExpiry n s
  | .coolDownTimerExpiry n => Sys2Proof.Machine.execCoolDownTimerExpiry n s
  | .boardLineJudgement => Sys2Proof.Machine.execBoardLineJudgement s
  | .frameSent => Sys2Proof.Machine.execFrameSent s
  | .replyFrame bytes => Sys2Proof.Machine.execReplyFrame bytes s
  | .replyTimerExpiry => Sys2Proof.Machine.execReplyTimerExpiry s
  | .probeTimerExpiry b => Sys2Proof.Machine.execProbeTimerExpiry b s
  | .stoploopChange v => Sys2Proof.Machine.execStoploopChange v s
  | .saveEnd good => Sys2Proof.Machine.execSaveEnd good s
  | .rxdReturnedHigh => Sys2Proof.Machine.execRxdReturnedHigh s
  | .lossOfPower => Sys2Proof.Machine.execLossOfPower s

end Sys2Proof.Machine
end

