-- ==== Sys2Proof/Safety.lean ====
section
/-! DEFINITION. The predicates and projections that the statements speak of: the bounds of the host link, the
canonical form of the tables, the part at rest, and what a block other than the host link leaves alone. -/

namespace Sys2Proof.Machine

open Sys2Proof

/-! ## Bounds and canonical forms -/

/-- The queues and counts of the host link are within their capacities (R152, R155). -/
def HostLink.inBounds (h : HostLink) : Bool :=
  decide (h.buffer.length ≤ Config.bufferMax) && decide (h.owed ≤ Config.owedMax)
    && decide (h.lost ≤ Config.lostMax) && decide (h.reports.length ≤ Config.reportMax)

/-- The tables of an image are in canonical form. -/
def Image.wf (i : Image) : Bool :=
  Table.wf i.sections && Table.wf i.modules && Table.wf i.terminals && Table.wf i.points && Table.wf i.routes
    && Table.wf i.signals && Table.wf i.trains && Table.wf i.roads && Table.wf i.shows

/-- The image a bank holds, if any, is in canonical form. -/
def Bank.wf : Bank → Bool
  | .blank => true
  | .image i _ _ => i.wf

/-- Both banks, and the copy of a SAVE in flight, are in canonical form. -/
def StopStore.wf (t : StopStore) : Bool :=
  t.bank0.wf && t.bank1.wf && (match t.save with
    | none => true
    | some j => j.copy.wf)

/-- Every table of the part is in canonical form: its record numbers strictly rise. -/
def State.tablesWf (s : State) : Bool :=
  Table.wf s.sections && Table.wf s.fc.modules && Table.wf s.fc.terminals && Table.wf s.fc.live
    && Table.wf s.pu.points && Table.wf s.ix.routes && Table.wf s.ix.signals && Table.wf s.tt.trains
    && Table.wf s.tu.roads && Table.wf s.vu.shows && s.ss.wf

/-! ## Rest -/

/-- The part is powered and its two arbiters have nothing to do: no buffer entry can be taken, no line can be
sent, no board transfer can be chosen. -/
def State.AtRest (s : State) : Prop := s.powered = true ∧ pumpStep s = s ∧ chooseTransfer s = s

/-- The part is at rest and its reply slot is empty, so a line that ends now is taken at once (R153). -/
def State.Ready (s : State) : Prop := s.AtRest ∧ s.hl.slot = none

/-- What becomes of a reply: it is sent when the transmitter is free and waits in the slot when it is not; the
board link's arbiter acts last (R153, R155, log 3). -/
def deliver (out : State × Reply) : State :=
  chooseTransfer (if out.1.hl.tx = none then out.1.setLink fun h => { h with tx := some (.reply out.2) }
    else out.1.setLink fun h => { h with slot := some out.2 })

/-- The rows that are a command line of the host (R153), known words only. -/
def hostRow : Instr → Bool
  | .define .. | .defDelete .. | .modeRun | .modeConfig | .setup _ | .getSection _ | .getModule _
  | .getTerminal .. | .getChain | .getPoint _ | .getSupply | .getRoute _ | .getSignal _ | .getTrain _
  | .getTimebase | .getChannel _ | .getTurntable | .getRoad _ | .getShow _ | .getBoard _ | .getLink | .getAux _
  | .routeSet _ | .routeStore _ | .routeCan _ | .point .. | .trainPlace .. | .trainSpeed .. | .trainReverse _
  | .trainRelease _ | .trainTake _ | .trainRemove _ | .trainRunlist .. | .timebase _ | .chanForce .. | .turn ..
  | .turnHome | .turnStop | .showEnable _ | .showDisable _ | .showAbort _ | .boardText .. | .boardSource ..
  | .aux .. | .tell _ | .chainReset | .chainMode _ | .estop | .resume | .save | .reset | .baud _ => true
  | _ => false

/-! ## What the other blocks leave alone -/

/-- What no block but the host link changes: its line, buffer, slot, transmitter and speed, the queue of
commands, the power. `roomy` says that the report queue is within its capacity. -/
structure LinkView where
  powered : Bool
  pending : List Instr
  line : Option Assembly
  gapTimer : Timer
  rxBreak : Bool
  buffer : List BufferEntry
  owed : Nat
  lost : Nat
  slot : Option Reply
  tx : Option TxLine
  speed : Nat
  roomy : Bool
deriving DecidableEq, Repr

/-- The view of a host link. -/
def HostLink.view (h : HostLink) (powered : Bool) (pending : List Instr) : LinkView :=
  { powered := powered, pending := pending, line := h.line, gapTimer := h.gapTimer, rxBreak := h.rxBreak
    buffer := h.buffer, owed := h.owed, lost := h.lost, slot := h.slot, tx := h.tx, speed := h.speed
    roomy := decide (h.reports.length ≤ Config.reportMax) }

/-- The host link as the other blocks leave it. -/
def State.link (s : State) : LinkView := s.hl.view s.powered s.pending

/-- Which records are DEFINED, table by table, whether the terminals' live fields are in canonical form, and what
the store holds. -/
structure TablesView where
  sections : List Nat
  modules : List Nat
  terminals : List Nat
  points : List Nat
  routes : List Nat
  signals : List Nat
  trains : List Nat
  roads : List Nat
  shows : List Nat
  liveWf : Bool
  bank0 : Bank
  bank1 : Bank
  save : Option SaveJob
deriving DecidableEq, Repr

/-- The tables of the part as every command but a definition, a start-up and a SAVE leaves them. -/
def State.tables (s : State) : TablesView :=
  { sections := Table.keys s.sections, modules := Table.keys s.fc.modules, terminals := Table.keys s.fc.terminals
    points := Table.keys s.pu.points, routes := Table.keys s.ix.routes, signals := Table.keys s.ix.signals
    trains := Table.keys s.tt.trains, roads := Table.keys s.tu.roads, shows := Table.keys s.vu.shows
    liveWf := Table.wf s.fc.live, bank0 := s.ss.bank0, bank1 := s.ss.bank1, save := s.ss.save }

/-! ## Reports and trains, as the statements speak of them -/

/-- What took the part to `t` has queued report `r`, unless its class is disabled or the queue full (R155). -/
def State.Told (t : State) (r : Report) : Prop :=
  t.hl.classes.contains r.class = false ∨ r ∈ t.hl.reports ∨ t.hl.overflow = true

/-- The end of section `x` that an ACTIVE train reaches when its lead crosses its exit end (R95). -/
def State.reaches (s : State) (t : TrainRec) (x : Nat) : Option EndName :=
  if t.state = .active then
    match t.list.getLast?.bind fun l => s.across l.sec l.exit with
    | some (y, f) => if y = x then some f else none
    | none => none
  else none

/-- PASSED-STOP and the remembered cap after a pass at aspect `a`, or after none (R98); a pass at STOP keeps the cap (log
74). -/
def State.passing (s : State) (a : Option Aspect) (passedStop : Bool) (cap : Option Nat) : Bool × Option Nat :=
  match a with
  | none => (passedStop, cap)
  | some .stop => (true, cap)
  | some a => (passedStop, s.capOf a)

/-- The request mark of a train, whose record an action took from `a` to `b` on the way to `u`: it is kept, but that
STARTED becomes NONE where the route at the head of the run list has become IDLE, a change handed on (R105). -/
def State.KeepsMark (u : State) (a b : TrainRec) : Prop :=
  b.mark = a.mark ∨
    a.mark = .started ∧ b.mark = .none ∧ ∃ r, a.cfg.runList.head? = some r ∧ Notice.routeChange r .idle ∈ u.agenda

/-- What the releases of routes leave of a train that an action does not name, `a` before it and `b` after it, on the way
to `u`: everything but ON-TURN, which the start of a bridge move gives (R131), and the mark by `State.KeepsMark`. -/
def State.KeepsTrain (u : State) (a b : TrainRec) : Prop :=
  u.KeepsMark a b ∧ { b with onTurn := a.onTurn, mark := a.mark } = a

/-! ## What follows a block's own action -/

/-- What becomes of an arrival that finds the part at `s` and whose own action leaves it at `t`: every hand-over
is taken, and the aspects are brought up to date and reported (R82, R83; logs 4 to 6). -/
def workOut (s t : State) : State := settleSignals s.aspects (settle t)

/-- Nothing waits to be handed over, and every aspect, stop cut and report of an aspect is up to date. -/
def State.Settled (s : State) : Prop := s.agenda = [] ∧ settleSignals s.aspects s = s

/-- What no hand-over changes: the clock, the mode, the field chain, the stop and the store, the sections'
configured fields and occupancy, the settings, the time-base and the channels, the bridge's configured fields,
the boards, the auxiliaries and the report classes. -/
structure QuietView where
  now : Nat
  mode : Mode
  sections : List (Nat × SectionCfg × Bool)
  fc : Chain
  ss : StopStore
  recharge : Nat
  detectTimeout : Nat
  shuntCap : Nat
  cautionCap : Nat
  prelimCap : Nat
  lostTime : Nat
  period : Nat
  shadow : Nat
  zeroAt : Nat
  divider : Nat
  channels : List Channel
  bridgeCap : Nat
  bridge : Option BridgeCfg
  roads : Table RoadCfg
  boards : List Board
  boardQueue : List (Nat × Nat)
  boardLink : BoardLink
  judgeDue : Nat
  classes : List ReportClass
  auxOut : List Bool
  auxIn : List Bool
deriving DecidableEq, Repr

/-- The part as the hand-overs of an arrival leave it. -/
def State.quiet (s : State) : QuietView :=
  { now := s.now, mode := s.mode, sections := s.sections.map fun x => (x.1, x.2.cfg, x.2.occupied), fc := s.fc
    ss := s.ss, recharge := s.pu.recharge, detectTimeout := s.pu.detectTimeout, shuntCap := s.ix.shuntCap
    cautionCap := s.ix.cautionCap, prelimCap := s.ix.prelimCap, lostTime := s.tt.lostTime, period := s.dg.period
    shadow := s.dg.shadow, zeroAt := s.dg.zeroAt, divider := s.dg.divider, channels := s.dg.channels
    bridgeCap := s.dg.bridgeCap, bridge := s.tu.bridge, roads := s.tu.roads, boards := s.vu.boards
    boardQueue := s.vu.boardQueue, boardLink := s.vu.link, judgeDue := s.vu.judgeDue, classes := s.hl.classes
    auxOut := s.hl.auxOut, auxIn := s.hl.auxIn }

/-! ## The aspects (R80, R81) -/

/-- The six conditions of R80 for the route of record `r`. -/
def State.R80 (s : State) (r : RouteRec) : Prop :=
  r.state = .set ∧ s.ss.stop = false ∧ s.fc.condition = .healthy
    ∧ (∀ x ∈ (if r.cfg.type = .shunt then r.cfg.path.dropLast else r.cfg.path) ++ r.cfg.overlap, s.occupied x = false)
    ∧ (∀ q ∈ r.cfg.points ++ r.cfg.flanks, (s.point? q.1).map (fun t => t.position) = some q.2.position)
    ∧ (∀ b ∈ r.cfg.bridge.toList, s.tu.state = .aligned ∧ (if b.2 = .a then s.tu.faceA else s.tu.faceB) = some b.1)

/-- What R80 and R81 ask of an assignment `a` of aspects at signal `g`. -/
def State.MeetsRules (s : State) (a : Nat → Aspect) (g : Nat) : Prop :=
  match (s.ledRoute g).bind s.route? with
  | none => a g = .stop
  | some r =>
    (¬ s.R80 r → a g = .stop) ∧
    (s.R80 r →
      match r.cfg.type, r.cfg.exit with
      | .shunt, _ => a g = .shunt
      | .main, .buffer => a g = .caution
      | .main, .road _ => a g = .caution
      | .main, .signal h =>
        if (s.signal? h).isNone then a g = .caution
        else
          match a h with
          | .stop => a g = .caution
          | .shunt => a g = .caution
          | .caution => a g = .prelim
          | .prelim => a g = .clear
          | .clear => a g = .clear)

/-! ## The channels (R109) -/

/-- Every channel that R109 makes FLOAT is FLOAT. -/
def State.FloatsByR109 (s : State) : Prop :=
  ∀ ch ∈ s.dg.channels,
    (s.ss.stop = true ∨ ch.force = .float ∨ (s.mode = .config ∧ ch.force = .none)) → ch.output = .float

/-! ## The modes (R11) and the definitions (R9, R12) -/

/-- In CONFIG every route is IDLE, no request waits, no train is ACTIVE or LOST, every show is UNAVAILABLE, and every
shadow compare is 0 (R11, R14, R111). -/
def State.RunsNothingInConfig (s : State) : Prop :=
  s.mode = .config →
    (∀ x ∈ s.ix.routes, x.2.state = .idle) ∧ s.ix.requests = [] ∧
    (∀ x ∈ s.tt.trains, x.2.state ≠ .active ∧ x.2.state ≠ .lost) ∧ (∀ x ∈ s.vu.shows, x.2.state = .unavailable) ∧
    (∀ ch ∈ s.dg.channels, ch.shadow = 0)

/-! ## The store (R160, R161) -/

/-- A SAVE in progress writes one of the two banks, which is BLANK meanwhile and so is not the current image's, and
numbers its copy one above the current image (R160, R161). -/
def State.SaveSparesCurrent (s : State) : Prop :=
  ∀ j, s.ss.save = some j →
    (j.bank = 0 ∧ s.ss.bank0 = .blank ∨ j.bank = 1 ∧ s.ss.bank1 = .blank) ∧
    (∀ b i q, s.ss.current = some (b, i, q) → b ≠ j.bank) ∧ j.seq = s.ss.nextSeq

/-- A definition command, its fields given and no number in them of more than five digits, is taken whole at state `s`
(R9). `field` reads one field, `base` is the
record before the fields are written, `write` makes the state with the record written, and `after` is what follows
a block's own action. -/
def TakenWhole {α : Type} (s : State) (after : State → State) (cmd : List (Text × Text) → Instr)
    (field : List (Text × Text) → Text → Text → FieldChange α) (base : List (Text × Text) → α)
    (write : List (Text × Text) → α → State) : Prop :=
  (∀ before rest n v c, (∀ q ∈ before ++ (n, v) :: rest, longValue q.2 = false) →
    (∀ q ∈ before, ∃ f, field (before ++ (n, v) :: rest) q.1 q.2 = .ok f) →
    field (before ++ (n, v) :: rest) n v = .error c →
    exec (cmd (before ++ (n, v) :: rest)) s = .next (deliver (after s, .no c (some (.word n))))) ∧
  (∀ (fields : List (Text × Text)) (writes : List (α → α)), fields ≠ [] → (∀ q ∈ fields, longValue q.2 = false) →
    fields.map (fun q => field fields q.1 q.2) = writes.map .ok →
    exec (cmd fields) s =
      .next (deliver (after (write fields (writes.foldl (fun a f => f a) (base fields))), .ok .bare)))

/-! ## The fields of a definition, as their tables give them (R1, R22, R39, R52, R77, R88, R124, R125, R137) -/

/-- Field `name` takes the numbers from `lo` to `hi` and refuses any other number NO RANGE; what is no number is NO
SYNTAX, but for the word NONE, which does as `absent` says (R153, R157; logs 13 and 54). -/
def TakesNumber {α : Type} (field : Text → Text → FieldChange α) (name : String) (lo hi : Nat) (write : Nat → α → α)
    (absent : FieldChange α := .error .badForm) : Prop :=
  (∀ n ≤ 99999, field name.toList (digits n) = if lo ≤ n ∧ n ≤ hi then .ok (write n) else .error .range) ∧
  field name.toList "NONE".toList = absent ∧
  (∀ v, v ≠ "NONE".toList → readNumber v = none → field name.toList v = .error .badForm) ∧
  (∀ v x, readNumber v = some x → x.negative = true ∨ x.fraction ≠ none ∨ x.tooLong = true →
    field name.toList v = .error .range)

/-- Field `name` takes the numbers from `lo` to `hi`, or NONE for the absent value (R157). -/
def TakesNumberOrNone {α : Type} (field : Text → Text → FieldChange α) (name : String) (lo hi : Nat)
    (write : Option Nat → α → α) : Prop :=
  TakesNumber field name lo hi (fun n => write (some n)) (.ok (write none))

/-- Field `name` takes the words of a table and refuses every other value NO RANGE (logs 13 and 65). -/
def TakesWord {α β : Type} (field : Text → Text → FieldChange α) (name : String) (words : List (String × β))
    (write : β → α → α) : Prop :=
  ∀ v, field name.toList v = match words.find? (fun w => w.1.toList == v) with
    | some w => .ok (write w.2)
    | none => .error .range

/-- Field `name` takes a terminal m.t of the chain, or NONE for the absent value (R157). -/
def TakesTerminal {α : Type} (field : Text → Text → FieldChange α) (name : String) (write : Option TermId → α → α) :
    Prop :=
  field name.toList "NONE".toList = .ok (write none) ∧
  (∀ m ≤ 99999, ∀ t ≤ 99999, field name.toList (digits m ++ '.' :: digits t) =
    if m < 40 ∧ t < 16 then .ok (write (some ⟨m, t⟩)) else .error .range) ∧
  (∀ v, v ≠ "NONE".toList → '.' ∉ v → field name.toList v = .error .badForm)

/-- Field `name` takes a pair n.w of a number from 0 to `hi` and a word of a table, or NONE, which does as `absent` says
(R157). -/
def TakesPair {α β : Type} (field : Text → Text → FieldChange α) (name : String) (hi : Nat) (words : List (String × β))
    (write : Nat × β → α → α) (absent : FieldChange α) : Prop :=
  field name.toList "NONE".toList = absent ∧
  (∀ n ≤ 99999, ∀ v, '.' ∉ v → field name.toList (digits n ++ '.' :: v) =
    match words.find? (fun w => w.1.toList == v) with
    | some w => if n ≤ hi then .ok (write (n, w.2)) else .error .range
    | none => .error .range)

/-- Field `name` takes a list of `lo` to `hi` items joined by commas, each spelled by `spell` and within its ranges as
`good` says; NONE and an empty value are the empty list (R52, R157; log 13). -/
def TakesList {α β : Type} (field : Text → Text → FieldChange α) (name : String) (lo hi : Nat) (spell : β → Text)
    (short good : β → Bool) (write : List β → α → α) : Prop :=
  (∀ l : List β, l ≠ [] → (∀ b ∈ l, short b = true) →
    field name.toList (l.flatMap fun b => ',' :: spell b).tail =
      if lo ≤ l.length ∧ l.length ≤ hi ∧ ∀ b ∈ l, good b = true then .ok (write l) else .error .range) ∧
  (∀ v, v = "NONE".toList ∨ v = [] → field name.toList v = if lo = 0 then .ok (write []) else .error .range)

/-- Under stated positions, the sections of a list that is not empty are reached one after the other across end `e` of
section `y`, each through the far end of the one before it (R16, tests 4 and 7); `last` is the last of them with the end
by which it is entered. -/
inductive State.Follows (s : State) (st : Stated) : Nat → EndName → List Nat → Nat × EndName → Prop
  | one {y : Nat} {e : EndName} {x : Nat} {f : EndName} : s.resolve st y e = some (x, f) →
      State.Follows s st y e [x] (x, f)
  | more {y : Nat} {e : EndName} {x : Nat} {f g : EndName} {z : Nat} {rest : List Nat} {last : Nat × EndName} :
      s.resolve st y e = some (x, f) → s.farEnd st x f = some g → State.Follows s st x g (z :: rest) last →
      State.Follows s st y e (x :: z :: rest) last

/-- A pass of validation over a table names the record of the lowest number that does not pass, or none. -/
def Names {α : Type} (answer : Failing) (t : Table α) (name : Nat → Obj) (passes : Nat → α → Prop) : Prop :=
  (answer = none ↔ ∀ n a, Table.find t n = some a → passes n a) ∧
  (∀ n a, Table.find t n = some a → ¬ passes n a →
    (∀ m b, m < n → Table.find t m = some b → passes m b) → answer = some (name n))

end Sys2Proof.Machine
end

