-- ==== Sys2Proof/Certificates/Slice0/Obligations.lean ====
section
/-! DEFINITION. The statements for the provers. A statement about a command says which next state the command
answers, on hypotheses about the state and the operands alone: `State.AtRest` for an event, `State.Ready` for a line
of the host, whose reply `deliver` sends or keeps. `workOut s t` is what the hand-overs make of a block's own
action, which took the part from `s` to `t`. -/

open Sys2Proof Sys2Proof.Machine

/-! ## The queue, the step, what every command keeps -/

/-- A step with a command at the front of the queue is that command on the state with the queue's rest. -/
def Obligations.StepRunsTheFrontCommand : Prop :=
  ∀ (c : Instr) (s : State), step { s with pending := c :: s.pending } = exec c s

/-- The model's own time and power (logs 1 and 22): with the queue empty a powered part rests 1 ms (4000 counts), after
which its arbiters act; without power only the application of power and a second loss of power act. -/
def Obligations.AnEmptyQueueRestsAndNoPowerDoesNothing : Prop :=
  (∀ s : State, s.pending = [] →
    (s.powered = true → step s = .next (arbitrate { s with now := s.now + 4000 })) ∧
    (s.powered = false → step s = .next s)) ∧
  (∀ (c : Instr) (s : State), s.powered = false → (∀ l, c ≠ .powerOn l) → c ≠ .lossOfPower → exec c s = .next s)

/-- Every command answers a next state, on every state, and leaves the queue of commands as it is. -/
def Obligations.EveryCommandAnswersANextState : Prop :=
  ∀ (c : Instr) (s : State), ∃ t, exec c s = .next t ∧ t.pending = s.pending

/-- The line buffer, the owed count, the lost count and the report queue never pass 4, 255, 65535 and 64. -/
def Obligations.TheLinkStaysWithinItsCapacities : Prop :=
  ∀ s t : State, s.hl.inBounds = true → step s = .next t → t.hl.inBounds = true

/-- Every step keeps every table in canonical form: its record numbers strictly rise. -/
def Obligations.TheTablesStayCanonical : Prop :=
  ∀ s t : State, s.tablesWf = true → step s = .next t → t.tablesWf = true

/-- The part after reset meets the five invariants that every step keeps. -/
def Obligations.ResetMeetsTheInvariants : Prop :=
  State.reset.hl.inBounds = true ∧ State.reset.tablesWf = true ∧ State.reset.FloatsByR109 ∧
    State.reset.RunsNothingInConfig ∧ State.reset.SaveSparesCurrent

/-- At rest, no command but a definition, a SAVE and its end, a start-up and what may take one of them from the line
makes a record DEFINED or ABSENT, or changes what the store holds. -/
def Obligations.OnlyDefinitionsAndSavesChangeTheTables : Prop :=
  ∀ (c : Instr) (s t : State), s.AtRest →
    (∀ l, c ≠ .powerOn l) → (∀ l, c ≠ .startUpSequence l) → c ≠ .lossOfPower → c ≠ .lineSent →
    (∀ k e, c ≠ .characterReceived k e) → (∀ k r fs, c ≠ .define k r fs) → (∀ k r, c ≠ .defDelete k r) →
    c ≠ .save → (∀ g, c ≠ .saveEnd g) →
    exec c s = .next t → t.tables = s.tables

/-- The frame of an arrival's hand-overs: whatever the block's own action was, taking the hand-overs and settling the
aspects changes neither the host link's line, buffer, slot, transmitter and counts, nor which records are DEFINED, nor
anything that `State.quiet` shows; and an action that changes nothing leaves a settled part as it is, so a refused
command changes nothing. -/
def Obligations.HandOversLeaveTheRestAlone : Prop :=
  (∀ s t : State, (workOut s t).link = t.link ∧ (workOut s t).tables = t.tables ∧ (workOut s t).quiet = t.quiet) ∧
  (∀ s : State, s.Settled → workOut s s = s)

/-! ## The host link (chapter 10) -/

/-- A line of the host that ends while the part is at rest with its reply slot empty is taken, judged by the rule that
owns it and answered within the event, whether it comes as a row (log 3) or as its characters with a CR, which are read
by R153 and R157 or answered with the refusal of the line's fault; one that ends while a reply waits in the slot joins
the line buffer by R152 and changes nothing else, as do a refusal mark and an unknown word. -/
def Obligations.HostLinesAreTakenOrWait : Prop :=
  (∀ (i : Instr) (s : State), hostRow i = true → s.Ready → exec i s = .next (deliver (runHost i s))) ∧
  (∀ (s : State) (a : Assembly), s.Ready → s.hl.rxBreak = false → s.hl.line = some a →
    exec (.characterReceived 13 false) s = .next (
      let ended := s.setLink fun h => { h with line := none, gapTimer := none }
      match a.fault with
      | some .bad => deliver (ended, .no .badForm none)
      | some .long => deliver (ended, .no .long none)
      | some .late => deliver (ended, .no .late none)
      | none =>
        if a.chars = [] then ended
        else match parseLine a.chars with
          | .ok i => deliver (runHost i ended)
          | .error c => deliver (ended, .no c none))) ∧
  (∀ s : State, s.AtRest → s.hl.slot ≠ none →
    (∀ i, hostRow i = true → exec i s = .next (s.setLink fun h => h.join (.command i))) ∧
    (∀ m, exec (.refusalMark m) s = .next (s.setLink fun h => h.join (.mark m))) ∧
    exec .unknownCommand s = .next (s.setLink fun h => h.join (.command .unknownCommand)))

/-- R152, whole: joining the buffer, refusal marks, the owed count and its replies, the lost count and its clearing,
and the values after power-on and after RESET. -/
def Obligations.TheLineBufferKeepsR152 : Prop :=
  (∀ (h : HostLink) (e : BufferEntry),
    (h.buffer.length < 4 → h.join e = { h with buffer := h.buffer ++ [e] }) ∧
    (4 ≤ h.buffer.length → h.owed < 255 → h.join e = { h with owed := h.owed + 1 }) ∧
    (4 ≤ h.buffer.length → 255 ≤ h.owed → h.join e = { h with lost := min (h.lost + 1) 65535 })) ∧
  (∀ (s : State) (a : Assembly), s.AtRest → s.hl.slot ≠ none → s.hl.rxBreak = false → s.hl.line = some a →
    (a.fault ≠ none ∨ a.chars ≠ []) →
    exec (.characterReceived 13 false) s = .next (s.setLink fun h =>
      { h with line := none, gapTimer := none }.join (match a.fault with
        | none => .line a.chars
        | some .bad => .mark .badForm
        | some .long => .mark .long
        | some .late => .mark .late))) ∧
  (∀ h : HostLink, 0 < h.owed → h.choose = { h with tx := some .owedFull, owed := h.owed - 1 }) ∧
  (∀ s : State, s.Ready → ∃ r, exec .getLink s = .next (deliver (s.setLink fun h => { h with lost := 0 }, r))) ∧
  (∀ (l : LoopValue) (s : State),
    ((powerOn l s).hl.buffer = [] ∧ (powerOn l s).hl.line = none ∧ (powerOn l s).hl.owed = 0 ∧ (powerOn l s).hl.lost = 0) ∧
    ((resetSequence l s).hl.buffer = [] ∧ (resetSequence l s).hl.line = none ∧ (resetSequence l s).hl.owed = 0 ∧
      (resetSequence l s).hl.lost = 0))

/-- The transmitter, free, sends an owed NO FULL first, then the reply in the slot, then the oldest report; a report
of a disabled class is not queued, the 65th is discarded and sets the overflow mark, and the next line to leave the
queue clears the mark and puts ! SYS OVERFLOW in the place freed. The line begun goes out as its characters with CR
and LF after them, a reply OK or NO with its words, a report ! with its words (R149, R157). An empty reply slot takes
the oldest entry of the line buffer: the entry leaves the buffer, a mark is answered with its code, a command or a
line that reads as one by its rule, any other line with its refusal, and the reply stands in the slot (R153); and what
the link's arbiters then make of every state of the transmitter, the slot, the owed count and the buffer is spelled, a
take, a choice and a take at most, before the board link chooses. That both arbiters act at the end of each event is
the model's choice (log 3). The words of every report, of every OK but the reply to a GET, whose words are a free
value (log 10), and of every refusal are spelled as the rules that own them quote them; OK TELL names the classes in
the order it is given, which is R155's by the model's choice (log 71). -/
def Obligations.TheTransmitterChoosesByR155 : Prop :=
  (∀ h : HostLink,
     (0 < h.owed → h.choose = { h with tx := some .owedFull, owed := h.owed - 1 }) ∧
     (∀ r, h.owed = 0 → h.slot = some r → h.choose = { h with tx := some (.reply r), slot := none }) ∧
     (h.owed = 0 → h.slot = none → h.reports = [] → h.choose = h) ∧
     (∀ r rest, h.owed = 0 → h.slot = none → h.reports = r :: rest → h.overflow = false →
       h.choose = { h with tx := some (.report r), reports := rest }) ∧
     (∀ r rest, h.owed = 0 → h.slot = none → h.reports = r :: rest → h.overflow = true → rest.length < 64 →
       h.choose = { h with
         tx := some (.report r), overflow := false
         reports := if h.classes.contains .sys then rest ++ [.sysOverflow] else rest }) ∧
     (∀ r, h.classes.contains r.class = false → h.report r = h) ∧
     (∀ r, h.classes.contains r.class = true → h.reports.length < 64 → h.report r = { h with reports := h.reports ++ [r] }) ∧
     (∀ r, h.classes.contains r.class = true → 64 ≤ h.reports.length → h.report r = { h with overflow := true }) ∧
     (h.tx = none → h.txd = []) ∧
     (∀ l, h.tx = some l → h.txd = (l.text.map fun c => BitVec.ofNat 8 c.toNat) ++ [13, 10]) ∧
     TxLine.owedFull.text = "NO FULL".toList ∧
     (∀ b, ∃ ws, (TxLine.reply (.ok b)).text = joinWords ("OK".toList :: ws)) ∧
     (∀ c o, ∃ ws, (TxLine.reply (.no c o)).text = joinWords ("NO".toList :: ws)) ∧
     (∀ r, ∃ ws, (TxLine.report r).text = joinWords ("!".toList :: ws))) ∧
  (∀ (s : State) (e : BufferEntry) (rest : List BufferEntry), s.hl.buffer = e :: rest →
    let taken := s.setLink fun h => { h with buffer := rest }
    let judged := match e with
      | .mark .badForm => (taken, Reply.no .badForm none)
      | .mark .long => (taken, .no .long none)
      | .mark .late => (taken, .no .late none)
      | .command i => runHost i taken
      | .line t => match parseLine t with
        | .ok i => runHost i taken
        | .error c => (taken, .no c none)
    takeEntry s = judged.1.setLink fun h => { h with slot := some judged.2 }) ∧
  (∀ s : State,
    let begun := fun (u : State) => u.setLink HostLink.choose
    let next := fun (u : State) => if u.hl.buffer = [] then u else takeEntry u
    (s.hl.tx ≠ none → s.hl.slot ≠ none ∨ s.hl.buffer = [] → arbitrate s = chooseTransfer s) ∧
    (s.hl.tx ≠ none → s.hl.slot = none → s.hl.buffer ≠ [] → arbitrate s = chooseTransfer (takeEntry s)) ∧
    (s.hl.tx = none → s.hl.slot = none → s.hl.buffer = [] → arbitrate s = chooseTransfer (begun s)) ∧
    (s.hl.tx = none → 0 < s.hl.owed → s.hl.slot = none → s.hl.buffer ≠ [] →
      arbitrate s = chooseTransfer (begun (takeEntry s))) ∧
    (s.hl.tx = none → 0 < s.hl.owed → s.hl.slot ≠ none → arbitrate s = chooseTransfer (begun s)) ∧
    (s.hl.tx = none → s.hl.owed = 0 → s.hl.slot = none → s.hl.buffer ≠ [] →
      arbitrate s = chooseTransfer (next (begun (takeEntry s)))) ∧
    (s.hl.tx = none → s.hl.owed = 0 → s.hl.slot ≠ none → arbitrate s = chooseTransfer (next (begun s)))) ∧
  (let t := String.toList
   let pos : PointPos → Text := fun | .n => t " N" | .r => t " R"
   let face : BridgeEnd → Text := fun | .a => t " A" | .b => t " B"
   let way : MoveDir → Text := fun | .cw => t " CW" | .ccw => t " CCW"
   let num := fun (n : Nat) => ' ' :: Nat.toDigits 10 n
   let signed := fun (d : Int) => if d < 0 then t " -" ++ Nat.toDigits 10 d.natAbs else num d.natAbs
   let at_ := fun (a : TermId) => num a.module ++ '.' :: Nat.toDigits 10 a.terminal
   let cls : ReportClass → Text := fun
     | .sec => t " SEC" | .point => t " POINT" | .signal => t " SIGNAL" | .route => t " ROUTE" | .train => t " TRAIN"
     | .turn => t " TURN" | .show => t " SHOW" | .board => t " BOARD" | .chain => t " CHAIN" | .aux => t " AUX" | .sys => t " SYS"
   let aspect : Aspect → Text := fun
     | .stop => t " STOP" | .shunt => t " SHUNT" | .caution => t " CAUTION" | .prelim => t " PRELIM" | .clear => t " CLEAR"
   let routeState : RouteState → Text := fun
     | .idle => t " IDLE" | .setting => t " SETTING" | .set => t " SET" | .cancelPending => t " CANCEL-PENDING"
     | .occupied => t " OCCUPIED"
   let bridgeState : BridgeState → Text := fun
     | .unhomed => t " UNHOMED" | .homing => t " HOMING" | .stopped => t " STOPPED" | .aligned => t " ALIGNED"
     | .moving => t " MOVING" | .stopping => t " STOPPING" | .fault => t " FAULT"
   let showState : ShowState → Text := fun
     | .unavailable => t " UNAVAILABLE" | .ready => t " READY" | .pending => t " PENDING" | .running => t " RUNNING"
     | .cooling => t " COOLING"
   let force : Force → Text := fun
     | .none => t " NONE" | .off => t " OFF" | .fullPos => t " FULL-POS" | .fullNeg => t " FULL-NEG" | .float => t " FLOAT"
   let mode : Mode → Text := fun | .run => t " RUN" | .config => t " CONFIG"
   let scan : ScanMode → Text := fun | .normal => t " NORMAL" | .lampTest => t " LAMP-TEST"
   let origin : Origin → Text := fun
     | .link => t " LINK" | .train n => t " TRAIN" ++ num n | .show n => t " SHOW" ++ num n | .route r => t " ROUTE" ++ num r
   let object : Obj → Text := fun
     | .sec x => t " SECTION" ++ num x | .point p => t " POINT" ++ num p | .route r => t " ROUTE" ++ num r
     | .signal g => t " SIGNAL" ++ num g | .train n => t " TRAIN" ++ num n | .show n => t " SHOW" ++ num n
     | .road k => t " ROAD" ++ num k | .channel c => t " CHANNEL" ++ num c | .terminal a => t " TERMINAL" ++ at_ a
     | .turntable => t " TURNTABLE" | .chain => t " CHAIN" | .loop => t " LOOP" | .word w => ' ' :: w
   let check : CheckWord → Text := fun
     | .topology => t " TOPOLOGY" | .path => t " PATH" | .role => t " ROLE" | .stopchan => t " STOPCHAN"
     | .polarity => t " POLARITY" | .turntable => t " TURNTABLE" | .runs => t " RUNS" | .calibration => t " CALIBRATION"
   let code : Code → Text := fun
     | .badForm => t "NO SYNTAX" | .unknown => t "NO UNKNOWN" | .range => t "NO RANGE" | .mode => t "NO MODE"
     | .busy => t "NO BUSY" | .state => t "NO STATE" | .conflict => t "NO CONFLICT" | .occupied => t "NO OCCUPIED"
     | .locked => t "NO LOCKED" | .failed => t "NO FAILED" | .full => t "NO FULL" | .limit => t "NO LIMIT"
     | .stopped => t "NO STOPPED" | .owned => t "NO OWNED" | .long => t "NO LONG" | .late => t "NO LATE"
     | .invalid => t "NO INVALID"
   let said := fun (r : Report) (ws : Text) => (TxLine.report r).text = ws
   let answered := fun (b : OkBody) (ws : Text) => (TxLine.reply (.ok b)).text = ws
   (∀ n m : Nat,
     said (.sec n true) (t "! SEC" ++ num n ++ t " OCC") ∧ said (.sec n false) (t "! SEC" ++ num n ++ t " CLEAR") ∧
     said (.aux n true) (t "! AUX" ++ num n ++ t " 1") ∧ said (.aux n false) (t "! AUX" ++ num n ++ t " 0") ∧
     (∀ q, said (.pointMoving n q) (t "! POINT" ++ num n ++ t " MOVING" ++ pos q) ∧
       said (.pointAt n q) (t "! POINT" ++ num n ++ pos q) ∧
       said (.pointLate n q) (t "! POINT" ++ num n ++ pos q ++ t " LATE")) ∧
     said (.pointLost n) (t "! POINT" ++ num n ++ t " LOST") ∧
     said (.pointDropped n .occ) (t "! POINT" ++ num n ++ t " DROPPED OCC") ∧
     said (.pointDropped n .lock) (t "! POINT" ++ num n ++ t " DROPPED LOCK") ∧
     said (.pointDropped n .stop) (t "! POINT" ++ num n ++ t " DROPPED STOP") ∧
     said (.pointDropped n .cancel) (t "! POINT" ++ num n ++ t " DROPPED CANCEL") ∧
     said (.pointFailed n) (t "! POINT" ++ num n ++ t " FAILED") ∧
     (∀ a, said (.signal n a) (t "! SIGNAL" ++ num n ++ aspect a)) ∧
     (∀ o, said (.routeQueued n o) (t "! ROUTE" ++ num n ++ t " QUEUED" ++ origin o)) ∧
     said (.routeDropped n .can) (t "! ROUTE" ++ num n ++ t " DROPPED CAN") ∧
     said (.routeDropped n .expiry) (t "! ROUTE" ++ num n ++ t " DROPPED EXPIRY") ∧
     said (.routeDropped n .withdrawn) (t "! ROUTE" ++ num n ++ t " DROPPED WITHDRAWN") ∧
     said (.routeDropped n .mode) (t "! ROUTE" ++ num n ++ t " DROPPED MODE") ∧
     (∀ st, said (.routeState n st) (t "! ROUTE" ++ num n ++ routeState st)) ∧
     said (.routeOccupied n m) (t "! ROUTE" ++ num n ++ t " OCCUPIED" ++ num m) ∧
     said (.routeFailed n (.point m)) (t "! ROUTE" ++ num n ++ t " FAILED POINT" ++ num m) ∧
     said (.routeFailed n .bridge) (t "! ROUTE" ++ num n ++ t " FAILED BRIDGE") ∧
     said (.routeFailed n .timeout) (t "! ROUTE" ++ num n ++ t " FAILED TIMEOUT") ∧
     said (.routeFailed n .stop) (t "! ROUTE" ++ num n ++ t " FAILED STOP") ∧
     said (.trainActive n m) (t "! TRAIN" ++ num n ++ t " ACTIVE" ++ num m) ∧
     said (.trainLost n m) (t "! TRAIN" ++ num n ++ t " LOST" ++ num m) ∧
     said (.trainFound n m) (t "! TRAIN" ++ num n ++ t " FOUND" ++ num m) ∧
     said (.trainUnplaced n) (t "! TRAIN" ++ num n ++ t " UNPLACED") ∧
     said (.trainReleased n) (t "! TRAIN" ++ num n ++ t " RELEASED") ∧
     said (.trainAt n m) (t "! TRAIN" ++ num n ++ t " AT" ++ num m) ∧
     said (.trainLong n m) (t "! TRAIN" ++ num n ++ t " LONG" ++ num m) ∧
     said (.trainPassedStop n m) (t "! TRAIN" ++ num n ++ t " PASSED-STOP" ++ num m) ∧
     (∀ ns, said (.trainAmbiguous n ns) (t "! TRAIN AMBIGUOUS" ++ num n ++ (ns.map num).flatten)) ∧
     said (.trainStray n) (t "! TRAIN STRAY" ++ num n) ∧
     said (.trainReversed n) (t "! TRAIN" ++ num n ++ t " REVERSED") ∧
     said (.trainConflict n m) (t "! TRAIN" ++ num n ++ t " DRIVE-CONFLICT" ++ num m) ∧
     said (.trainConflictClear n) (t "! TRAIN" ++ num n ++ t " DRIVE-CONFLICT CLEAR") ∧
     said .turnHoming (t "! TURN HOMING") ∧
     (∀ e d, said (.turnMoving n e d) (t "! TURN MOVING" ++ num n ++ face e ++ way d)) ∧
     said .turnStopping (t "! TURN STOPPING") ∧
     said (.turnStopped n) (t "! TURN STOPPED" ++ num n) ∧
     (∀ e, said (.turnAligned n e) (t "! TURN ALIGNED" ++ num n ++ face e)) ∧
     said .turnFaultHome (t "! TURN FAULT HOME") ∧
     (∀ d, said (.turnFaultDrift d) (t "! TURN FAULT DRIFT" ++ signed d) ∧ said (.turnDrift d) (t "! TURN DRIFT" ++ signed d)) ∧
     said (.turnUnhomed true) (t "! TURN UNHOMED DEFINE") ∧ said (.turnUnhomed false) (t "! TURN UNHOMED STOP") ∧
     (∀ st, said (.showState n st) (t "! SHOW" ++ num n ++ showState st)) ∧
     (∀ q ∈ [(AbortCause.timeout, "TIMEOUT"), (.route, "ROUTE"), (.turn, "TURN"), (.stop, "STOP"), (.lost, "LOST"),
         (.removed, "REMOVED"), (.passedStop, "PASSED-STOP"), (.take, "TAKE"), (.host, "HOST"), (.disable, "DISABLE"),
         (.mode, "MODE")], said (.showAbort n q.1) (t "! SHOW" ++ num n ++ t " ABORT " ++ t q.2)) ∧
     said (.showLeg n m) (t "! SHOW" ++ num n ++ t " LEG" ++ num m) ∧
     said (.board n true) (t "! BOARD" ++ num n ++ t " ONLINE") ∧ said (.board n false) (t "! BOARD" ++ num n ++ t " OFFLINE") ∧
     said (.chainCondition .down) (t "! CHAIN DOWN") ∧ said (.chainCondition .settling) (t "! CHAIN SETTLING") ∧
     said (.chainCondition .healthy) (t "! CHAIN HEALTHY") ∧ said (.chainFault .tail) (t "! CHAIN FAULT TAIL") ∧
     said (.chainFault (.enum n)) (t "! CHAIN FAULT ENUM" ++ num n) ∧
     said (.chainModule n .healthy) (t "! CHAIN MODULE" ++ num n ++ t " HEALTHY") ∧
     said (.chainModule n .faulty) (t "! CHAIN MODULE" ++ num n ++ t " FAULTY") ∧
     (∀ a, said (.chainMode a) (t "! CHAIN MODE" ++ scan a)) ∧
     said .sysBreak (t "! SYS BREAK") ∧ (∀ a, said (.sysMode a) (t "! SYS MODE" ++ mode a)) ∧
     said .sysOverflow (t "! SYS OVERFLOW") ∧ said (.sysEstop .loop) (t "! SYS ESTOP LOOP") ∧
     (∀ a, said (.sysEstop (.button a)) (t "! SYS ESTOP BUTTON" ++ at_ a)) ∧ said (.sysEstop .host) (t "! SYS ESTOP HOST") ∧
     said .sysResumed (t "! SYS RESUMED") ∧ said .sysSaved (t "! SYS SAVED") ∧ said .sysSaveFailed (t "! SYS SAVE-FAILED") ∧
     said .sysStoreEmpty (t "! SYS STORE-EMPTY") ∧ said .sysStoreBad (t "! SYS STORE-BAD") ∧
     (∀ o c, said (.sysInvalid o c) (t "! SYS INVALID" ++ object o ++ check c)) ∧
     said (.sysStart .power) (t "! SYS START POWER") ∧ said (.sysStart .reset) (t "! SYS START RESET")) ∧
   (∀ n m : Nat,
     answered .bare (t "OK") ∧ (∀ a, answered (.mode a) (t "OK MODE" ++ mode a)) ∧ answered .setup (t "OK SETUP") ∧
     (∀ st, answered (.route n st) (t "OK ROUTE" ++ num n ++ routeState st)) ∧
     answered (.routeQueued n) (t "OK ROUTE" ++ num n ++ t " QUEUED") ∧
     answered (.trainActive n) (t "OK TRAIN" ++ num n ++ t " ACTIVE") ∧
     answered (.trainSpeed n m) (t "OK TRAIN" ++ num n ++ t " SPEED" ++ num m) ∧
     answered (.trainReleased n) (t "OK TRAIN" ++ num n ++ t " RELEASED") ∧
     answered (.trainLink n) (t "OK TRAIN" ++ num n ++ t " LINK") ∧
     answered (.trainUnplaced n) (t "OK TRAIN" ++ num n ++ t " UNPLACED") ∧
     answered (.trainRunlist n) (t "OK TRAIN" ++ num n ++ t " RUNLIST") ∧
     answered (.timebase n) (t "OK TIMEBASE" ++ num n) ∧
     (∀ f, answered (.chanForce n f) (t "OK CHAN" ++ num n ++ t " FORCE" ++ force f)) ∧
     (∀ e d, answered (.turnMoving n e d) (t "OK TURN MOVING" ++ num n ++ face e ++ way d)) ∧
     (∀ e, answered (.turnAligned n e) (t "OK TURN ALIGNED" ++ num n ++ face e)) ∧
     (∀ st, answered (.turnState st) (t "OK TURN" ++ bridgeState st)) ∧
     (∀ st, answered (.show n st) (t "OK SHOW" ++ num n ++ showState st)) ∧
     answered (.board n m) (t "OK BOARD" ++ num n ++ num m) ∧ answered (.aux n m) (t "OK AUX" ++ num n ++ num m) ∧
     (∀ cs, answered (.tell cs) (t "OK TELL" ++ (cs.map cls).flatten)) ∧
     answered .chainReset (t "OK CHAIN RESET") ∧ (∀ a, answered (.chainMode a) (t "OK CHAIN MODE" ++ scan a)) ∧
     answered .estop (t "OK ESTOP") ∧ answered .resume (t "OK RESUME") ∧ answered .save (t "OK SAVE") ∧
     answered .reset (t "OK RESET") ∧ answered (.baud n) (t "OK BAUD" ++ num n)) ∧
   (∀ c, (TxLine.reply (.no c none)).text = code c ∧
     (∀ o, (TxLine.reply (.no c (some o))).text = code c ++ object o) ∧
     (∀ o k, (TxLine.reply (.notValid o k)).text = t "NO INVALID" ++ object o ++ check k)))

/-- R150 and R151: what a character does to the line in assembly, the gap timer starting again while a line is in
assembly and its expiry ending the line LATE, and the break, which discards the line, is reported once and lets no
character be received until RXD returns high. The model's choices: the expiry of a gap timer that does not run does
nothing (log 2), and CR or LF with a framing error is taken as any character with one (log 59). -/
def Obligations.ReceptionFollowsR150AndR151 : Prop :=
  (∀ (s : State) (k : Byte) (fe : Bool), s.AtRest →
    (s.hl.rxBreak = true → exec (.characterReceived k fe) s = .next s) ∧
    (s.hl.rxBreak = false → k = 10 → fe = false → exec (.characterReceived k fe) s =
      .next (s.setLink fun h => { h with gapTimer := if h.line.isSome then some (s.now + 8000000) else none })) ∧
    (s.hl.rxBreak = false → (k ≠ 10 ∧ k ≠ 13 ∨ fe = true) → exec (.characterReceived k fe) s =
      .next (s.setLink fun h =>
        let a := h.line.getD {}
        let c := Char.ofNat k.toNat
        { h with
          gapTimer := some (s.now + 8000000)
          line := some (
            if fe = true ∨ k.toNat < 32 ∨ 126 < k.toNat then { a with fault := a.fault.or (some .bad) }
            else if 120 ≤ a.chars.length then { a with fault := a.fault.or (some .long) }
            else if a.fault ≠ none then a
            else if k = 34 then { a with chars := a.chars ++ [c], inQuote := !a.inQuote }
            else if a.inQuote = false ∧ 97 ≤ k.toNat ∧ k.toNat ≤ 122 then
              { a with chars := a.chars ++ [Char.ofNat (k.toNat - 32)] }
            else { a with chars := a.chars ++ [c] }) })) ∧
    (s.hl.rxBreak = false → s.hl.line = none → exec (.characterReceived 13 false) s =
      .next (s.setLink fun h => { h with gapTimer := none }))) ∧
  (∀ s : State, s.AtRest →
    (s.hl.gapTimer = none → exec .gapTimerExpiry s = .next s) ∧
    (∀ d, s.hl.gapTimer = some d → exec .gapTimerExpiry s = .next (arbitrate
      ({ s with now := max s.now d }.setLink fun h =>
        { h with line := none, gapTimer := none }.join (.mark .late)))) ∧
    (s.hl.rxBreak = true → exec .rxdBreak s = .next s) ∧
    (s.hl.rxBreak = false → exec .rxdBreak s = .next (arbitrate
      ((s.setLink fun h => { h with line := none, gapTimer := none, rxBreak := true }).report .sysBreak))) ∧
    exec .rxdReturnedHigh s = .next (arbitrate (s.setLink fun h => { h with rxBreak := false })))

/-- The end of a line sent frees the transmitter; the end of OK BAUD n puts the new speed in force, and the end of OK
RESET begins the start-up sequence with the link speed kept (R149, R155, R162). The model's choices: the speed changes at
BAUD_CHANGE or LINE_SENT, whichever comes first, and the start-up runs at LINE_SENT with the loop as it stands (log 21);
a BAUD_CHANGE with no OK BAUD being sent does nothing (log 2). -/
def Obligations.ALineSentFreesTheTransmitter : Prop :=
  ∀ s : State, s.AtRest →
    (∀ n, s.hl.tx = some (.reply (.ok (.baud n))) →
      exec .lineSent s = .next (arbitrate (s.setLink fun h => { h with tx := none, speed := n })) ∧
      exec .baudChange s = .next (arbitrate (s.setLink fun h => { h with speed := n }))) ∧
    (s.hl.tx = some (.reply (.ok .reset)) →
      exec .lineSent s = .next (startUp .reset s.ss.loop s.hl.speed s) ∧ exec .baudChange s = .next s) ∧
    ((∀ n, s.hl.tx ≠ some (.reply (.ok (.baud n)))) → s.hl.tx ≠ some (.reply (.ok .reset)) →
      exec .lineSent s = .next (arbitrate (s.setLink fun h => { h with tx := none })) ∧
      exec .baudChange s = .next s)

/-- A refusal mark answers NO SYNTAX, NO LONG or NO LATE, a word that is no command word NO UNKNOWN; BAUD answers OK
at a speed of R149 and NO RANGE at another, RESET answers OK, and none of them changes anything yet. -/
def Obligations.MarksUnknownWordsBaudAndReset : Prop :=
  ∀ s : State, s.Ready →
    exec (.refusalMark .badForm) s = .next (deliver (s, .no .badForm none)) ∧
    exec (.refusalMark .long) s = .next (deliver (s, .no .long none)) ∧
    exec (.refusalMark .late) s = .next (deliver (s, .no .late none)) ∧
    exec .unknownCommand s = .next (deliver (s, .no .unknown none)) ∧
    (∀ n, exec (.baud n) s = .next (deliver (s,
      if n ∈ [9600, 19200, 38400, 57600, 115200, 230400] then .ok (.baud n) else .no .range none))) ∧
    exec .reset s = .next (deliver (s, .ok .reset))

/-- GET of a record answers OK with the record, or with ABSENT, and NO RANGE for a number out of range (the model's choice,
log 14: R108 says it of GET CHANNEL); nothing changes. -/
def Obligations.QueriesOfRecordsAnswerTheRecord : Prop :=
  ∀ (s : State) (n m : Nat), s.Ready →
    exec (.getSection n) s = .next (deliver (s, if n < 128
      then .ok (.getSection n (Table.find s.sections n) (s.holder n)) else .no .range none)) ∧
    exec (.getModule n) s = .next (deliver (s, if n < 40
      then .ok (.getModule n ((Table.find s.fc.modules n).map fun r => r.type)
        (if n < s.chainLength then (Table.find s.fc.modules n).map fun r => r.health else none)
        ((Table.find s.fc.modules n).isSome && decide (s.chainLength ≤ n)))
      else .no .range none)) ∧
    exec (.getTerminal n m) s = .next (deliver (s, if n < 40 ∧ m < 16
      then .ok (.getTerminal ⟨n, m⟩ ((Table.find s.fc.terminals (16 * n + m)).getD {})
        ((Table.find s.fc.live (16 * n + m)).getD {}).lastSample
        ((Table.find s.fc.live (16 * n + m)).getD {}).qualified
        (if ((Table.find s.fc.terminals (16 * n + m)).getD {}).role.isSense then some (s.heldValue (16 * n + m)) else none)
        (decide (s.chainLength ≤ n)))
      else .no .range none)) ∧
    exec (.getPoint n) s = .next (deliver (s, if n < 64
      then .ok (.getPoint n ((Table.find s.pu.points n).map fun r =>
        { record := r, detected := r.cfg.detN.isSome && r.cfg.detR.isSome, sec := s.pointSection n
          place := placeOf (fun e => e.1 == n) s.pu.queue }))
      else .no .range none)) ∧
    exec (.getRoute n) s = .next (deliver (s, if n < 256
      then .ok (.getRoute n ((Table.find s.ix.routes n).map fun q =>
        { record := q, lockedSections := s.lockedSections n, lockedPoints := s.lockedPoints n
          lockedBridge := s.tu.locks.contains n, settingLeft := q.settingTimer.map fun d => d - s.now
          approachLeft := q.approachTimer.map fun d => d - s.now, overlapLeft := q.overlapTimer.map fun d => d - s.now
          dwellLeft := q.dwellTimer.map fun d => d - s.now, request := s.requestView n }))
      else .no .range none)) ∧
    exec (.getSignal n) s = .next (deliver (s, if n < 96
      then .ok (.getSignal n ((Table.find s.ix.signals n).map fun q =>
        { record := q, led := (s.ledRoute n).bind fun r => (s.route? r).map fun c => (r, c.state)
          lamps := q.cfg.lamps.map fun l => (l, lampValue q.cfg q.aspect l) }))
      else .no .range none)) ∧
    exec (.getTrain n) s = .next (deliver (s, if n < 32
      then .ok (.getTrain n (Table.find s.tt.trains n)
        ((Table.find s.tt.trains n).bind fun t => t.lostTimer.map fun d => d - s.now))
      else .no .range none)) ∧
    exec (.getRoad n) s = .next (deliver (s, if n < 24
      then .ok (.getRoad n (Table.find s.tu.roads n)
        (if s.tu.faceA = some n then some .a else if s.tu.faceB = some n then some .b else none))
      else .no .range none)) ∧
    exec (.getShow n) s = .next (deliver (s, if n < 8
      then .ok (.getShow n ((Table.find s.vu.shows n).map fun w =>
        { record := w, legLeft := w.legTimer.map fun d => d - s.now, dwellLeft := w.dwellTimer.map fun d => d - s.now
          coolLeft := w.coolTimer.map fun d => d - s.now, place := placeOf (fun m => m == n) s.vu.waiting }))
      else .no .range none))

/-- GET of a unit answers OK with what its rule names; only GET LINK changes anything, the lost count, which becomes 0. NO
RANGE for a board or an auxiliary out of range is the model's choice (log 14; R108 says it of GET CHANNEL), and so is
that no time is shown to a probe that is due or in flight (log 53). -/
def Obligations.QueriesOfUnitsAnswerTheUnit : Prop :=
  ∀ (s : State) (n : Nat), s.Ready →
    exec .getChain s = .next (deliver (s, .ok (.getChain {
      seq := s.fc.seq, condition := s.fc.condition, length := s.chainLength, found := s.fc.found
      modeInForce := s.fc.modeInForce, modeRequested := s.fc.modeRequested, clock := s.fc.clock, period := s.fc.period
      lastFault := s.fc.lastFault
      awaited := if s.fc.condition = .settling then s.awaited.map termOfKey else none }))) ∧
    exec .getSupply s = .next (deliver (s, .ok (.getSupply s.pu.supply s.pu.queue s.pu.recharge s.pu.detectTimeout))) ∧
    exec .getTimebase s = .next (deliver (s, .ok (.getTimebase s.dg.period s.dg.shadow (max 1 (80000 / s.dg.period))
      (max 1 (80000 / s.dg.period) * s.dg.period)))) ∧
    exec (.getChannel n) s = .next (deliver (s, if n < 24
      then .ok (.getChannel n ((s.dg.channels[n]?).getD {}) (s.sectionsOn n)) else .no .range none)) ∧
    exec .getTurntable s = .next (deliver (s, .ok (.getTurntable s.tu))) ∧
    exec (.getBoard n) s = .next (deliver (s, if 1 ≤ n ∧ n ≤ 4
      then .ok (.getBoard n (s.board n).online ((s.board n).probeTimer.map fun d => d - s.now)
        ([1, 2, 3, 4].map fun l =>
          { source := ((s.board n).line l).source, composed := s.composeLine ((s.board n).line l).source
            acked := ((s.board n).line l).acked, place := placeOf (fun e => e == (n, l)) s.vu.boardQueue }))
      else .no .range none)) ∧
    exec (.getAux n) s = .next (deliver (s, if n < 16
      then .ok (.getAux n ((s.hl.auxOut[n]?).getD false) ((s.hl.auxIn[n]?).getD false)) else .no .range none)) ∧
    exec .getLink s = .next (deliver (s.setLink fun h => { h with lost := 0 },
      .ok (.getLink s.hl.speed s.hl.classes s.hl.reports.length s.hl.overflow s.hl.buffer.length s.hl.owed s.hl.lost)))

/-- A line that spells a command with its numbers, each of one to five digits, reads back as that command: every GET of a
numbered record, the commands of section 10.4 with one number or two, BOARD with its source or its text, TRAIN n RUNLIST
with any routes, and DEF of one kind word with DELETE or one field; and the two longer speeds of BAUD, which are read by
the model's choice (log 11). -/
def Obligations.SpelledLinesReadBack : Prop :=
  ∀ n m k : Nat, n ≤ 99999 → m ≤ 99999 → k ≤ 99999 →
    (∀ e ∈ [("GET SECTION ", "", Instr.getSection n), ("GET MODULE ", "", Instr.getModule n),
        ("GET POINT ", "", Instr.getPoint n), ("GET ROUTE ", "", Instr.getRoute n),
        ("GET SIGNAL ", "", Instr.getSignal n), ("GET TRAIN ", "", Instr.getTrain n),
        ("GET CHANNEL ", "", Instr.getChannel n), ("GET ROAD ", "", Instr.getRoad n),
        ("GET SHOW ", "", Instr.getShow n), ("GET BOARD ", "", Instr.getBoard n),
        ("GET AUX ", "", Instr.getAux n), ("ROUTE SET ", "", .routeSet n),
        ("ROUTE STORE ", "", .routeStore n), ("ROUTE CAN ", "", .routeCan n),
        ("POINT ", " N", .point n .n), ("POINT ", " R", .point n .r),
        ("TRAIN ", " REVERSE", .trainReverse n), ("TRAIN ", " RELEASE", .trainRelease n),
        ("TRAIN ", " TAKE", .trainTake n), ("TRAIN ", " REMOVE", .trainRemove n),
        ("TRAIN ", " RUNLIST ONCE", .trainRunlist n .once []),
        ("TRAIN ", " RUNLIST LOOP", .trainRunlist n .loop []), ("TIMEBASE ", "", .timebase n),
        ("BAUD ", "", .baud n), ("SHOW ", " ENABLE", .showEnable n), ("SHOW ", " DISABLE", .showDisable n),
        ("SHOW ", " ABORT", .showAbort n), ("CHAN ", " FORCE NONE", .chanForce n (some .none)),
        ("CHAN ", " FORCE OFF", .chanForce n (some .off)),
        ("CHAN ", " FORCE FULL-POS", .chanForce n (some .fullPos)),
        ("CHAN ", " FORCE FULL-NEG", .chanForce n (some .fullNeg)),
        ("CHAN ", " FORCE FLOAT", .chanForce n (some .float)), ("TURN ", " A", .turn n (some .a) none),
        ("TURN ", " B", .turn n (some .b) none), ("TURN ", " A CW", .turn n (some .a) (some .cw)),
        ("TURN ", " A CCW", .turn n (some .a) (some .ccw)),
        ("TURN ", " B CW", .turn n (some .b) (some .cw)),
        ("TURN ", " B CCW", .turn n (some .b) (some .ccw)),
        ("DEF SECTION ", " DELETE", .defDelete "SECTION".toList (.num n)),
        ("DEF MODULE ", " DELETE", .defDelete "MODULE".toList (.num n)),
        ("DEF POINT ", " DELETE", .defDelete "POINT".toList (.num n)),
        ("DEF ROUTE ", " DELETE", .defDelete "ROUTE".toList (.num n)),
        ("DEF SIGNAL ", " DELETE", .defDelete "SIGNAL".toList (.num n)),
        ("DEF TRAIN ", " DELETE", .defDelete "TRAIN".toList (.num n)),
        ("DEF ROAD ", " DELETE", .defDelete "ROAD".toList (.num n)),
        ("DEF SHOW ", " DELETE", .defDelete "SHOW".toList (.num n))],
      parseLine (e.1.toList ++ digits n ++ e.2.1.toList) = .ok e.2.2) ∧
    (∀ e ∈ [("TRAIN ", " SPEED ", "", Instr.trainSpeed n m),
        ("TRAIN ", " PLACE ", " DIR A", .trainPlace n m (some .a)),
        ("TRAIN ", " PLACE ", " DIR B", .trainPlace n m (some .b)),
        ("TRAIN ", " PLACE ", " DIR TOE", .trainPlace n m (some .toe)),
        ("TRAIN ", " PLACE ", " DIR NORMAL", .trainPlace n m (some .normal)),
        ("TRAIN ", " PLACE ", " DIR REVERSE", .trainPlace n m (some .reverse)),
        ("AUX ", " ", "", .aux n m), ("GET TERMINAL ", ".", "", .getTerminal n m),
        ("BOARD ", " ", " SOURCE BLANK", .boardSource n m .blank),
        ("DEF TERMINAL ", ".", " DELETE", .defDelete "TERMINAL".toList (.terminal n m))],
      parseLine (e.1.toList ++ digits n ++ e.2.1.toList ++ digits m ++ e.2.2.1.toList) = .ok e.2.2.2) ∧
    parseLine ("BOARD ".toList ++ digits n ++ " ".toList ++ digits m ++ " SOURCE TRAIN ".toList ++ digits k) =
      .ok (.boardSource n m (.train k)) ∧
    parseLine ("BOARD ".toList ++ digits n ++ " ".toList ++ digits m ++ " SOURCE SHOW ".toList ++ digits k) =
      .ok (.boardSource n m (.show k)) ∧
    (∀ text : Text, '"' ∉ text →
      parseLine ("BOARD ".toList ++ digits n ++ " ".toList ++ digits m ++ " \"".toList ++ text ++ "\"".toList) =
        .ok (.boardText n m text)) ∧
    (∀ rs : List Nat, (∀ r ∈ rs, r ≤ 99999) →
      parseLine ("TRAIN ".toList ++ digits n ++ " RUNLIST ONCE".toList ++ rs.flatMap fun r => ' ' :: digits r) =
        .ok (.trainRunlist n .once rs) ∧
      parseLine ("TRAIN ".toList ++ digits n ++ " RUNLIST LOOP".toList ++ rs.flatMap fun r => ' ' :: digits r) =
        .ok (.trainRunlist n .loop rs)) ∧
    (∀ (kind : String) (name value : Text),
      kind ∈ ["SECTION", "MODULE", "POINT", "ROUTE", "SIGNAL", "TRAIN", "ROAD", "SHOW"] →
      name ≠ [] → (∀ c ∈ name, c ≠ ' ' ∧ c ≠ '"' ∧ c ≠ '=') → (∀ c ∈ value, c ≠ ' ' ∧ c ≠ '"') →
      parseLine ("DEF ".toList ++ kind.toList ++ " ".toList ++ digits n ++ " ".toList ++ name ++ "=".toList ++ value) =
        .ok (.define kind.toList (.num n) [(name, value)]) ∧
      parseLine ("DEF TERMINAL ".toList ++ digits n ++ ".".toList ++ digits m ++ " ".toList ++ name ++ "=".toList ++ value) =
        .ok (.define "TERMINAL".toList (.terminal n m) [(name, value)])) ∧
    parseLine "BAUD 115200".toList = .ok (.baud 115200) ∧ parseLine "BAUD 230400".toList = .ok (.baud 230400)
/-! ## The time-base and the channels (chapter 7) -/

/-- TIMEBASE P writes the shadow period and nothing else, in both modes, stopped or not, and is refused NO RANGE
outside 200 to 65535 (R106). A counter zero, whole: the period load with its rescaling (R107), the output state of
every channel (R109), its loads by the force (R110), and one more counter zero counted by the divider (R112). Between
zeros the leg of a DRIVEN channel's polarity is ON while the counter is below the compare and LOW from it on, the
other leg LOW, and both legs of a FLOAT channel are HIGH-Z (R110); the counter counts the time since the last zero.
That a forced channel loads what its force gives at its first zero after a stop is the model's choice (log 66). -/
def Obligations.TheTimeBaseAndItsZerosFollowR106ToR112 : Prop :=
  (∀ (s : State) (p : Nat), s.Ready → exec (.timebase p) s = .next (deliver (
    if 200 ≤ p ∧ p ≤ 65535 then ({ s with dg := { s.dg with shadow := p } }, .ok (.timebase p))
    else (s, .no .range none)))) ∧
  (∀ s : State, s.AtRest → exec .counterZero s = .next (arbitrate { s with
    now := max s.now (s.dg.zeroAt + s.dg.period)
    dg := { s.dg with
      period := s.dg.shadow
      zeroAt := s.dg.zeroAt + s.dg.period
      divider := s.dg.divider + 1
      channels := s.dg.channels.map fun ch =>
        let new := fun c => if s.dg.shadow = s.dg.period then c else c * s.dg.shadow / s.dg.period
        { ch with
          shadow := new ch.shadow
          output := if s.ss.stop = true ∨ ch.force = .float ∨ (s.mode = .config ∧ ch.force = .none) then .float
            else .driven
          compare := match ch.force with
            | .none | .float => new ch.shadow
            | .off => 0
            | .fullPos | .fullNeg => s.dg.shadow
          polarity := match ch.force with
            | .none | .float => ch.shadowPolarity
            | .off => ch.polarity
            | .fullPos => .pos
            | .fullNeg => .neg } } })) ∧
  (∀ (ch : Channel) (count : Nat),
    (ch.output = .float → ch.legs count = (.highZ, .highZ)) ∧
    (ch.output = .driven → ch.polarity = .pos → ch.legs count = (if count < ch.compare then .on else .low, .low)) ∧
    (ch.output = .driven → ch.polarity = .neg → ch.legs count = (.low, if count < ch.compare then .on else .low))) ∧
  (∀ s : State, 0 < s.dg.period → s.counter < s.dg.period ∧
    (s.dg.zeroAt ≤ s.now → s.now < s.dg.zeroAt + s.dg.period → s.dg.zeroAt + s.counter = s.now))

/-- What R109 makes FLOAT is FLOAT in every state that a step reaches from one where it is: while emergency stop is
active no channel drives its rails, nor under force FLOAT, nor in CONFIG under no force. -/
def Obligations.AFloatingChannelNeverDrives : Prop :=
  ∀ s t : State, s.FloatsByR109 → step s = .next t → t.FloatsByR109

/-- CHAN c FORCE f: R111's table in its order, and what the new force does to the one channel's output state and
shadow by R109; the other channels, and everything else, are as they were. -/
def Obligations.ChanForceKeepsR111 : Prop :=
  ∀ (s : State) (c : Nat) (f : Option Force), s.Ready → s.FloatsByR109 →
    exec (.chanForce c f) s = .next (deliver (
      if 24 ≤ c then (s, .no .range none)
      else match f with
        | none => (s, .no .badForm none)
        | some f =>
          if s.mode = .run ∧ (∃ x ∈ s.sections, x.2.cfg.channel = some c) then (s, .no .state (some (.channel c)))
          else if s.ss.stop = true ∧ (f = .fullPos ∨ f = .fullNeg) then (s, .no .stopped none)
          else ({ s with dg := { s.dg with channels := s.dg.channels.modify c fun ch =>
              let floats := fun g => s.ss.stop = true ∨ g = Force.float ∨ (s.mode = .config ∧ g = Force.none)
              { ch with
                force := f
                output := if floats f then .float else ch.output
                shadow := if floats ch.force ∧ ¬ floats f then 0 else ch.shadow } } },
            .ok (.chanForce c f))))

/-! ## The settings, the auxiliaries and the report classes (chapter 10) -/

/-- SETUP is taken whole: the first pair that fails, in the order written, decides, names the key of a value out of
its range, and nothing changes; when all pass, every write is made, in order. A key of no setting is refused NO SYNTAX
(R154). A number of more than five digits is refused NO RANGE before any pair is judged (R153). A word where a number
is due inside KEY=value is judged in its pair's place, after the numbers of more than five digits (the model's choice,
log 64). -/
def Obligations.SetupIsTakenWhole : Prop :=
  ∀ s : State, s.Ready →
    (∀ (before after : List (Text × Text)) (k v : Text) (c : Code),
      (∀ q ∈ before ++ (k, v) :: after, longNumber q.2 = false) →
      (∀ q ∈ before, ∃ f, setupKey q.1 q.2 = .ok f) → setupKey k v = .error c →
      exec (.setup (before ++ (k, v) :: after)) s =
        .next (deliver (s, .no c (if c = .range then some (.word k) else none)))) ∧
    (∀ pairs : List (Text × Text), (∃ q ∈ pairs, longNumber q.2 = true) →
      exec (.setup pairs) s = .next (deliver (s, .no .range none))) ∧
    (∀ (pairs : List (Text × Text)) (writes : List (State → State)), pairs ≠ [] →
      (∀ q ∈ pairs, longNumber q.2 = false) → pairs.map (fun q => setupKey q.1 q.2) = writes.map .ok →
      exec (.setup pairs) s = .next (deliver (writes.foldl (fun t f => f t) s, .ok .setup))) ∧
    (∀ k v, k ∉ ["CHAIN-CLOCK", "SCAN-PERIOD", "RECHARGE", "DETECT-TIMEOUT", "SHUNT-CAP", "CAUTION-CAP", "PRELIM-CAP",
        "LOST-TIME", "BRIDGE-CAP", "AUTORUN"].map String.toList →
      setupKey k v = .error .badForm)

/-- Each number setting takes the numbers of its range and refuses any other NO RANGE, naming its key; the chain clock
takes its five values, and autorun YES and NO (R30, R44, R85, R89, R113, R154). -/
def Obligations.EverySettingTakesItsRange : Prop :=
  ∀ s : State, s.Ready →
    (∀ n ≤ 99999, ∀ key lo hi, ∀ write : State → State,
      (key, lo, hi, write) ∈ [
        ("SCAN-PERIOD", 5, 50, fun s : State => { s with fc := { s.fc with period := n } }),
        ("RECHARGE", 100, 2000, fun s => { s with pu := { s.pu with recharge := n } }),
        ("DETECT-TIMEOUT", 300, 5000, fun s => { s with pu := { s.pu with detectTimeout := n } }),
        ("SHUNT-CAP", 0, 127, fun s => { s with ix := { s.ix with shuntCap := n } }),
        ("CAUTION-CAP", 0, 127, fun s => { s with ix := { s.ix with cautionCap := n } }),
        ("PRELIM-CAP", 0, 127, fun s => { s with ix := { s.ix with prelimCap := n } }),
        ("LOST-TIME", 500, 10000, fun s => { s with tt := { s.tt with lostTime := n } }),
        ("BRIDGE-CAP", 0, 127, fun s => { s with dg := { s.dg with bridgeCap := n } })] →
      exec (.setup [(key.toList, digits n)]) s = .next (deliver (
        if lo ≤ n ∧ n ≤ hi then (write s, .ok .setup) else (s, .no .range (some (.word key.toList)))))) ∧
    (∀ (text : String) (n : Nat), (text, n) ∈ [("1000", 10000), ("500", 5000), ("250", 2500), ("125", 1250), ("62.5", 625)] →
      exec (.setup [("CHAIN-CLOCK".toList, text.toList)]) s =
        .next (deliver ({ s with fc := { s.fc with clock := n } }, .ok .setup))) ∧
    exec (.setup [("CHAIN-CLOCK".toList, "300".toList)]) s =
      .next (deliver (s, .no .range (some (.word "CHAIN-CLOCK".toList)))) ∧
    exec (.setup [("AUTORUN".toList, "YES".toList)]) s =
      .next (deliver ({ s with ss := { s.ss with autorun := true } }, .ok .setup)) ∧
    exec (.setup [("AUTORUN".toList, "NO".toList)]) s =
      .next (deliver ({ s with ss := { s.ss with autorun := false } }, .ok .setup))

/-- AUX a v sets one auxiliary output (R156); TELL applies its signed words in the order written, so the last word for
a class decides it, is refused NO SYNTAX for a word without a sign anywhere in it (R153), and else NO UNKNOWN, whole,
for a word of no class (R154); CHAIN MODE sets the requested mode and is refused NO MODE only for LAMP-TEST in RUN
(R37). The order of the classes in OK TELL is the model's choice (log 71). -/
def Obligations.AuxTellAndChainMode : Prop :=
  ∀ s : State, s.Ready →
    (∀ a v, exec (.aux a v) s = .next (deliver (
      if a < 16 ∧ v < 2 then ({ s with hl := { s.hl with auxOut := s.hl.auxOut.set a (v == 1) } }, .ok (.aux a v))
      else (s, .no .range none)))) ∧
    (∀ l : List (Bool × ReportClass), l ≠ [] →
      let after := Config.allClasses.filter fun c => match (l.filter fun e => e.2 = c).getLast? with
        | some e => e.1
        | none => s.hl.classes.contains c
      exec (.tell (l.map fun e => if e.1 then .enable (some e.2) else .disable (some e.2))) s =
        .next (deliver ({ s with hl := { s.hl with classes := after } }, .ok (.tell after)))) ∧
    (∀ ws : List TellWord,
      (ws = [] ∨ TellWord.unsigned ∈ ws → exec (.tell ws) s = .next (deliver (s, .no .badForm none))) ∧
      (TellWord.unsigned ∉ ws → TellWord.enable none ∈ ws ∨ TellWord.disable none ∈ ws →
        exec (.tell ws) s = .next (deliver (s, .no .unknown none)))) ∧
    (∀ m, exec (.chainMode m) s = .next (deliver (
      if m = .lampTest ∧ s.mode = .run then (s, .no .mode none)
      else ({ s with fc := { s.fc with modeRequested := m, requestedAt := s.fc.composed } }, .ok (.chainMode m)))))

/-! ## The layout tables and the modes (chapter 1) -/

/-- In every state that a step reaches from one where it is so: in CONFIG every route is IDLE, no request waits, no
train is ACTIVE or LOST, every show is UNAVAILABLE (R11) and every channel's shadow compare is 0 (R111). -/
def Obligations.ConfigRunsNothing : Prop :=
  ∀ s t : State, s.RunsNothingInConfig → step s = .next t → t.RunsNothingInConfig

/-- MODE RUN: the replies of R12, the eight checks in their numbered order, a result that the configured fields alone
decide, and the entry to RUN as R13 gives it, from the CONFIG of R11. -/
def Obligations.ModeRunValidatesAndEntersRun : Prop :=
  (∀ s : State, s.Ready →
    (s.mode = .run → exec .modeRun s = .next (deliver (workOut s s, .ok (.mode .run)))) ∧
    (s.mode = .config → s.ss.save ≠ none → exec .modeRun s = .next (deliver (workOut s s, .no .busy none))) ∧
    (∀ o c, s.mode = .config → s.ss.save = none → s.validate = some (o, c) →
      exec .modeRun s = .next (deliver (workOut s s, .notValid o c))) ∧
    (s.mode = .config → s.ss.save = none → s.validate = none → s.FloatsByR109 → s.RunsNothingInConfig →
      exec .modeRun s = .next (deliver (workOut s { s with
        mode := .run
        hl := s.hl.report (.sysMode .run)
        fc := { s.fc with modeRequested := .normal, requestedAt := s.fc.composed }
        dg := { s.dg with channels := s.dg.channels.mapIdx fun c ch =>
          let f := if s.sections.any fun x => x.2.cfg.channel == some c then .none else ch.force
          { ch with
            force := f
            output := if s.ss.stop = true ∨ f = .float then .float else ch.output
            shadow := if f = .none then 0 else ch.shadow } } }, .ok (.mode .run))))) ∧
  (∀ s t : State, s.copyImage = t.copyImage → s.validate = t.validate) ∧
  (∀ (s : State) (o : Obj), let v := s.configured
    (v.checkTopology = some o → s.validate = some (o, .topology)) ∧
    (v.checkTopology = none → v.checkPath = some o → s.validate = some (o, .path)) ∧
    (v.checkTopology = none → v.checkPath = none → v.checkRole = some o → s.validate = some (o, .role)) ∧
    (v.checkTopology = none → v.checkPath = none → v.checkRole = none → v.checkStopchan = some o →
      s.validate = some (o, .stopchan)) ∧
    (v.checkTopology = none → v.checkPath = none → v.checkRole = none → v.checkStopchan = none →
      v.checkPolarity = some o → s.validate = some (o, .polarity)) ∧
    (v.checkTopology = none → v.checkPath = none → v.checkRole = none → v.checkStopchan = none →
      v.checkPolarity = none → v.checkTurntable = some o → s.validate = some (o, .turntable)) ∧
    (v.checkTopology = none → v.checkPath = none → v.checkRole = none → v.checkStopchan = none →
      v.checkPolarity = none → v.checkTurntable = none → v.checkRuns = some o → s.validate = some (o, .runs)) ∧
    (v.checkTopology = none → v.checkPath = none → v.checkRole = none → v.checkStopchan = none →
      v.checkPolarity = none → v.checkTurntable = none → v.checkRuns = none →
      s.validate = v.checkCalibration.map fun o => (o, .calibration)))

/-- MODE CONFIG: refused NO BUSY in R14's four cases, nothing in CONFIG, and otherwise the entry to CONFIG: no
request, no train ACTIVE or LOST, every show as after power-on, no conflict and no fallen mark, every unforced channel
FLOAT, the chain reset. A train that was ACTIVE or LOST becomes UNPLACED with all but its configured fields reset
(what the boards read of it stays, by the model's choice, log 25); the reports of requests dropped, trains and shows
are queued, and that of the mode; every configured field and setting, an undetected point at rest, a detection wait,
and, where the reset does not bring emergency stop about, the throw queue, the stop and the bridge are kept. A train
carried by the bridge is carried no longer by the model's choice (log 58). The entry is stated for a part with no
hand-over waiting, as every event leaves it. -/
def Obligations.ModeConfigEntersConfig : Prop :=
  ∀ s : State, s.Ready →
    (s.mode = .config → exec .modeConfig s = .next (deliver (s, .ok (.mode .config)))) ∧
    (s.mode = .run →
      (s.ss.save ≠ none ∨ (∃ x ∈ s.ix.routes, x.2.state ≠ .idle) ∨ (∃ x ∈ s.tt.trains, x.2.current ≠ 0) ∨
        s.tu.state = .moving) →
      exec .modeConfig s = .next (deliver (s, .no .busy none))) ∧
    (s.agenda = [] → s.mode = .run → s.ss.save = none → (∀ x ∈ s.ix.routes, x.2.state = .idle) →
      (∀ x ∈ s.tt.trains, x.2.current = 0) → s.tu.state ≠ .moving →
      ∃ t, exec .modeConfig s = .next (deliver (t, .ok (.mode .config))) ∧
        t.mode = .config ∧ t.ix.requests = [] ∧ t.vu.waiting = [] ∧
        (∀ x ∈ t.tt.trains, x.2.state ≠ .active ∧ x.2.state ≠ .lost) ∧
        (∀ x ∈ t.vu.shows, x.2 = { cfg := x.2.cfg }) ∧
        (∀ ch ∈ t.dg.channels, ch.conflict = false ∧ (ch.force = .none → ch.output = .float)) ∧
        t.fc.seq = .chReset ∧ t.fc.condition = .down ∧ t.pu.queue.map (fun e => e.1) ⊆ s.pu.queue.map (fun e => e.1) ∧
        (∀ n r, s.train? n = some r → r.state = .active ∨ r.state = .lost → t.Told (.trainUnplaced n) ∧
          t.train? n = some { cfg := r.cfg, state := .unplaced, departure := r.departure, stepRead := r.stepRead }) ∧
        (∀ q ∈ s.ix.requests, t.Told (.routeDropped q.route .mode)) ∧
        (∀ n w, s.show? n = some w → t.show? n = some { cfg := w.cfg } ∧
          (w.state = .running → t.Told (.showAbort n .mode)) ∧
          (w.state ≠ .running → w.state ≠ .unavailable → t.Told (.showState n .unavailable))) ∧
        t.Told (.sysMode .config) ∧ t.dg.fallen = [] ∧ t.copyImage = s.copyImage ∧
        (∀ p r, s.point? p = some r →
          (r.phase = .atRest → r.cfg.detN = none ∨ r.cfg.detR = none →
            (t.point? p).map (fun a => (a.position, a.commanded, a.phase, a.failed, a.locks)) =
              some (r.position, r.commanded, .atRest, r.failed, r.locks)) ∧
          (r.phase = .awaiting → s.readingNow p r.cfg = r.reading → r.reading ≠ .both →
              (∀ q, s.pu.supply = .pulsing q → q.point ≠ p) →
            (t.point? p).map (fun a => (a.position, a.commanded, a.phase, a.detTimer)) =
              some (r.position, r.commanded, .awaiting, r.detTimer))) ∧
        (s.ss.stop = true ∨ (∀ e ∈ s.fc.terminals, e.2.role ≠ .stopButton) →
          t.pu.queue = s.pu.queue ∧ t.ss = s.ss ∧
          { t.tu with carried := none } = { s.tu with carried := none }))

/-- A definition or a deletion is refused by the first condition of R10's table that holds, and changes nothing; a
number where the kind word is due is NO SYNTAX and a number of more than five digits NO RANGE before it (R153), while
a signed number of the record is NO RANGE in its place of the table, after NO MODE and NO BUSY. That a POINT out of
range, naming no point, and an unknown kind pass the busy conditions by is the model's choice (log 35), as are the
parts of a value in which a number is sought (log 13). -/
def Obligations.DefinitionsAreRefusedByR10 : Prop :=
  ∀ s : State, s.Ready →
    let steps := s.tu.state = .homing ∨ s.tu.state = .moving ∨ s.tu.state = .stopping
    let short := fun (fields : List (Text × Text)) => fields ≠ [] ∧ ∀ f ∈ fields, longValue f.2 = false
    (∀ w bound n c, (w, bound) ∈ [("SECTION", 128), ("MODULE", 40), ("POINT", 64), ("ROUTE", 256), ("SIGNAL", 96),
        ("TRAIN", 32), ("ROAD", 24), ("SHOW", 8)] →
      (if 99999 < n then some Code.range
        else if s.mode = .run then some .mode
        else if s.ss.save ≠ none then some .busy
        else if (w = "POINT" ∧ n < 64 ∧ ∃ r, s.point? n = some r ∧ r.phase ≠ .atRest) ∨ (w = "ROAD" ∧ steps)
          then some .busy
        else if bound ≤ n then some .range
        else none) = some c →
      (∀ fields, short fields → exec (.define w.toList (.num n) fields) s = .next (deliver (s, .no c none))) ∧
      exec (.defDelete w.toList (.num n)) s = .next (deliver (s, .no c none))) ∧
    (∀ w, w ∈ ["SECTION", "MODULE", "TERMINAL", "POINT", "ROUTE", "SIGNAL", "TRAIN", "ROAD", "SHOW"] →
      let c := if s.mode = .run then Code.mode
        else if s.ss.save ≠ none ∨ (w = "ROAD" ∧ steps) then .busy
        else .range
      (∀ fields, short fields → exec (.define w.toList .other fields) s = .next (deliver (s, .no c none))) ∧
      exec (.defDelete w.toList .other) s = .next (deliver (s, .no c none))) ∧
    (∀ m t c,
      (if 99999 < m ∨ 99999 < t then some Code.range
        else if s.mode = .run then some .mode else if s.ss.save ≠ none then some .busy
        else if 40 ≤ m ∨ 16 ≤ t then some .range else none) = some c →
      (∀ fields, short fields → exec (.define "TERMINAL".toList (.terminal m t) fields) s = .next (deliver (s, .no c none))) ∧
      exec (.defDelete "TERMINAL".toList (.terminal m t)) s = .next (deliver (s, .no c none))) ∧
    (∀ c,
      (if s.mode = .run then some Code.mode else if s.ss.save ≠ none then some .busy
        else if steps then some .busy else none) = some c →
      (∀ fields, short fields → exec (.define "TURNTABLE".toList .unnamed fields) s = .next (deliver (s, .no c none))) ∧
      exec (.defDelete "TURNTABLE".toList .unnamed) s = .next (deliver (s, .no c none))) ∧
    (∀ (kind : Text) (n : Nat),
      kind ∉ ["SECTION", "MODULE", "TERMINAL", "POINT", "ROUTE", "SIGNAL", "TRAIN", "TURNTABLE", "ROAD", "SHOW"].map
        String.toList →
      let c := if (readNumber kind).isSome then Code.badForm else if 99999 < n then .range
        else if s.mode = .run then .mode else if s.ss.save ≠ none then .busy else .unknown
      (∀ fields, short fields → exec (.define kind (.num n) fields) s = .next (deliver (s, .no c none))) ∧
      exec (.defDelete kind (.num n)) s = .next (deliver (s, .no c none))) ∧
    (∀ kind r fields, target kind r ≠ .error .badForm → (∃ f ∈ fields, longValue f.2 = true) →
      exec (.define kind r fields) s = .next (deliver (s, .no .range none)))

/-- A definition is taken whole (R9): the first field that fails, in the order written, is named and nothing changes;
when all pass, the record takes every write in order, over its own fields when DEFINED and over the defaults when
ABSENT, its live fields kept but where R3, R21, R23, R40, R88, R124, R125 and R138 say otherwise. A section's kind and
a signal's head are changed before the other fields, and a section's kind, a signal's head and shunt lamp and a
terminal's role are the last that the command names (the model's choice, log 46). A definition of no field does not
fit the form, and is NO SYNTAX (the model's choice, log 13). A value with a number of more than five digits is refused
before any field is read (R153). And the table of each kind's fields (R1, R22, R39, R52, R77, R88, R124, R125, R137):
the names, the range, the words or the list that each field takes, what NONE does, the default of every field, the
fields that a section's kind or a signal's head gives, every role of a terminal with the direction it sets; and what a
terminal's change of direction, role or active level takes from its old owner and hands to its new one (R23),
STOP-BUTTON's PRESSED among it (deduced, log 29). That START-DUTY, TOP-DUTY, STEPS-PER-TURN, MINIMUM-RATE,
MAXIMUM-RATE and POSITION are read with their symbols and without is deduced (log 12). A value of the wrong shape is
refused as log 13 says, where a word is due as log 65 says, a decimal point before or after all digits as log 54 says,
and in the order of log 64; what the boards read of a train is kept when a definition makes it UNPLACED or UNUSED (log
25); the old owner is brought up to date first (log 60), and a definition that creates the bridge record reports
nothing (log 63), all of them the model's choices. -/
def Obligations.DefinitionsAreTakenWhole : Prop :=
  (∀ (s : State) (n : Nat), s.Ready → s.mode = .config → s.ss.save = none →
     (∀ kind r, exec (.define kind r []) s = .next (deliver (s, .no .badForm none))) ∧
     (∀ kind r fields, target kind r ≠ .error .badForm → (∃ f ∈ fields, longValue f.2 = true) →
       exec (.define kind r fields) s = .next (deliver (s, .no .range none))) ∧
     (n < 128 → TakenWhole s (workOut s) (.define "SECTION".toList (.num n))
       (fun fs => sectionField (sectionBase fs n s).kind) (fun fs => sectionBase fs n s)
       (fun _ c => refreshSection n { s with
         sections := Table.put s.sections n { (s.section? n).getD {} with cfg := c } })) ∧
     (n < 40 → TakenWhole s id (.define "MODULE".toList (.num n))
       (fun _ => moduleField) (fun _ => ((Table.find s.fc.modules n).map fun r => r.type).getD .general)
       (fun _ t => if (Table.find s.fc.modules n).map (fun r => r.type) = some t then s
         else chainReset { s with fc := { s.fc with
           modules := Table.put s.fc.modules n { (Table.find s.fc.modules n).getD {} with type := t } } })) ∧
     (∀ m t, m < 40 → t < 16 → TakenWhole s (workOut s) (.define "TERMINAL".toList (.terminal m t))
       (fun fs => terminalField ((lastValue "ROLE-AND-OBJECT" readRole fs).getD (s.terminal ⟨m, t⟩).role))
       (fun _ => s.terminal ⟨m, t⟩)
       (fun _ c => reownTerminal (16 * m + t) (s.terminal ⟨m, t⟩)
         { s with fc := { s.fc with terminals := Table.put s.fc.terminals (16 * m + t) c } })) ∧
     (n < 64 → (∀ r, s.point? n = some r → r.phase = .atRest) →
       TakenWhole s (workOut s) (.define "POINT".toList (.num n))
       (fun _ => pointField) (fun _ => ((s.point? n).map fun r => r.cfg).getD {})
       (fun fs c =>
         let old := (s.point? n).getD {}
         let fresh := s.point? n = none ∨
           ∃ f ∈ fs, f.1 = "DETECTION-N-TERMINAL".toList ∨ f.1 = "DETECTION-R-TERMINAL".toList
         let r := if fresh then { old with
             cfg := c, position := .unknown, commanded := none, failed := false, reading := s.readingNow n c }
           else { old with cfg := c }
         let t := { s with pu := { s.pu with points := Table.put s.pu.points n r } }
         if r.position = old.position then t else t.hand (.pointChange n .moved))) ∧
     (n < 256 → TakenWhole s (workOut s) (.define "ROUTE".toList (.num n))
       (fun _ => routeField) (fun _ => ((s.route? n).map fun r => r.cfg).getD {})
       (fun _ c => { s with ix := { s.ix with
         routes := Table.put s.ix.routes n { (s.route? n).getD {} with cfg := c } } })) ∧
     (n < 96 → TakenWhole s (workOut s) (.define "SIGNAL".toList (.num n))
       (fun fs => signalField (signalBase fs n s)) (fun fs => signalBase fs n s)
       (fun _ c => { s with ix := { s.ix with
         signals := Table.put s.ix.signals n { (s.signal? n).getD {} with cfg := c } } })) ∧
     (n < 32 → TakenWhole s (workOut s) (.define "TRAIN".toList (.num n))
       (fun _ => trainField) (fun _ => ((s.train? n).map fun r => r.cfg).getD {})
       (fun _ c =>
         let old := (s.train? n).getD {}
         let r := if c.tag = none then { old.initial .unused with cfg := c }
           else if old.state = .unused then { old.initial .unplaced with cfg := c }
           else { old with cfg := c }
         let t := { s with tt := { s.tt with trains := Table.put s.tt.trains n r } }
         if r.state = old.state then t else t.hand (.trainChange n .other))) ∧
     (¬ s.tu.ten = true → TakenWhole s (workOut s) (.define "TURNTABLE".toList .unnamed)
       (fun _ => bridgeField) (fun _ => s.tu.bridge.getD {})
       (fun _ c =>
         if (s.tu.bridge.map fun b => b.steps).getD c.steps = c.steps then { s with tu := { s.tu with bridge := some c } }
         else ({ s with tu := { s.tu with
           bridge := some c, state := .unhomed, position := none, faceA := none, faceB := none } }.report
             (.turnUnhomed true)).hand .bridgeChange)) ∧
     (n < 24 → ¬ s.tu.ten = true → TakenWhole s (workOut s) (.define "ROAD".toList (.num n))
       (fun _ => roadField) (fun _ => (Table.find s.tu.roads n).getD {})
       (fun _ c => judgeFacings { s with tu := { s.tu with roads := Table.put s.tu.roads n c } })) ∧
     (n < 8 → TakenWhole s (workOut s) (.define "SHOW".toList (.num n))
       (fun _ => showField) (fun _ => ((s.show? n).map fun r => r.cfg).getD {})
       (fun _ c => judgeAvailable n { s with vu := { s.vu with
         shows := Table.put s.vu.shows n { (s.show? n).getD {} with cfg := c } } }))) ∧
  (let ends := [("A", EndName.a), ("B", .b), ("TOE", .toe), ("NORMAL", .normal), ("REVERSE", .reverse)]
   ∀ k : SectionKind,
    let field := sectionField k
    TakesWord field "KIND" [("PLAIN", SectionKind.plain), ("POINT", .point), ("BRIDGE", .bridge)] (fun _ c => c) ∧
    (∀ name e, ∀ write : Neighbour → SectionCfg → SectionCfg,
      (name, e, write) ∈ [
        ("A", EndName.a, fun v (c : SectionCfg) => { c with endA := v }), ("B", .b, fun v c => { c with endB := v }),
        ("TOE", .toe, fun v c => { c with endToe := v }), ("NORMAL", .normal, fun v c => { c with endNormal := v }),
        ("REVERSE", .reverse, fun v c => { c with endReverse := v })] →
      (e ∉ k.ends → ∀ v, field name.toList v = .error .badForm) ∧
      (e ∈ k.ends → field name.toList "TURNTABLE".toList = .ok (write .turntable) ∧
        TakesPair field name 127 ends (fun p => write (.sectionEnd p.1 p.2)) (.ok (write .buffer)))) ∧
    (k = .point → TakesNumber field "POINT" 0 63 fun p c => { c with point := some p }) ∧
    (k ≠ .point → ∀ v, field "POINT".toList v = .error .badForm) ∧
    TakesTerminal field "DETECTOR-TERMINAL" (fun t c => { c with detector := t }) ∧
    TakesNumber field "CLEAR-DELAY" 0 2000 (fun d c => { c with clearDelay := d }) ∧
    TakesNumber field "SPEED-LIMIT" 0 127 (fun d c => { c with speedLimit := d }) ∧
    TakesNumberOrNone field "DRIVE-CHANNEL" 0 23 (fun d c => { c with channel := d }) ∧
    TakesWord field "SENSE" [("+", Sense.plus), ("-", .minus)] (fun d c => { c with sense := d }) ∧
    TakesNumberOrNone field "PLATFORM" 1 9 (fun d c => { c with platform := d }) ∧
    (∀ n v, n ∉ ["KIND", "A", "B", "TOE", "NORMAL", "REVERSE", "POINT", "DETECTOR-TERMINAL", "CLEAR-DELAY", "SPEED-LIMIT",
      "DRIVE-CHANNEL", "SENSE", "PLATFORM"].map String.toList → field n v = .error .badForm)) ∧
  (∀ (s : State) (n : Nat) (fs : List (Text × Text)),
    let old := ((s.section? n).map fun r => r.cfg).getD {}
    let kinds := (fs.filter fun f => f.1 = "KIND".toList).filterMap fun f =>
      pick [("PLAIN", SectionKind.plain), ("POINT", .point), ("BRIDGE", .bridge)] f.2
    sectionBase fs n s = match kinds.getLast? with
      | none => old
      | some k =>
        if k = old.kind then old
        else if k = .point ∨ old.kind = .point then { old with
          kind := k, point := none, endA := .buffer, endB := .buffer, endToe := .buffer, endNormal := .buffer
          endReverse := .buffer }
        else { old with kind := k }) ∧
  TakesWord moduleField "TYPE" [("GENERAL", ModuleType.general), ("DETECTOR", .detector), ("DRIVER", .driver)]
    (fun t _ => t) ∧
  (∀ n v, n ≠ "TYPE".toList → moduleField n v = .error .badForm) ∧
  (∀ n ≤ 99999, ∀ before after : String, ∀ hi : Nat, ∀ role : Role,
    (before, after, hi, role) ∈ [
      ("DETECT.", "", 127, Role.detect n), ("POINT-DET.", ".N", 63, .pointDet n .n), ("POINT-DET.", ".R", 63, .pointDet n .r),
      ("BUTTON.", "", 7, .button n), ("AUX-IN.", "", 15, .auxIn n), ("COIL.", ".N", 63, .coil n .n),
      ("COIL.", ".R", 63, .coil n .r), ("SIGNAL-LAMP.", ".RED", 95, .signalLamp n .red),
      ("SIGNAL-LAMP.", ".YELLOW", 95, .signalLamp n .yellow), ("SIGNAL-LAMP.", ".YELLOW2", 95, .signalLamp n .yellow2),
      ("SIGNAL-LAMP.", ".GREEN", 95, .signalLamp n .green), ("SIGNAL-LAMP.", ".SHUNT", 95, .signalLamp n .shunt),
      ("MIMIC.SECTION-OCC.", "", 127, .mimic (.sectionOcc n)), ("MIMIC.SECTION-LOCK.", "", 127, .mimic (.sectionLock n)),
      ("MIMIC.POINT-POS.", ".N", 63, .mimic (.pointPos n .n)), ("MIMIC.POINT-POS.", ".R", 63, .mimic (.pointPos n .r)),
      ("MIMIC.SIGNAL-PROCEED.", "", 95, .mimic (.signalProceed n)), ("MIMIC.ROAD.", "", 23, .mimic (.road n)),
      ("MIMIC.SHOW-LAMP.", "", 7, .mimic (.showLamp n)), ("AUX-OUT.", "", 15, .auxOut n)] →
    readRole (before.toList ++ digits n ++ after.toList) = if n ≤ hi then .ok role else .error .range) ∧
  readRole "STOP-BUTTON".toList = .ok .stopButton ∧ readRole "OFF".toList = .ok .off ∧
  (∀ r : Role,
    let way := fun (x : Role) => match x with
      | .detect _ | .pointDet _ _ | .button _ | .stopButton | .auxIn _ => some Direction.sense
      | .coil _ _ | .signalLamp _ _ | .mimic _ | .auxOut _ => some .drive
      | .off => none
    (∀ v, terminalField r "ROLE-AND-OBJECT".toList v = match readRole v with
      | .ok x => .ok fun c => { c with role := x, direction := (way x).getD c.direction }
      | .error c => .error c) ∧
    (∀ v, terminalField r "DIRECTION".toList v =
      match [("SENSE", Direction.sense), ("DRIVE", .drive)].find? (fun w => w.1.toList == v) with
      | some w => if way r = none ∨ way r = some w.2 then .ok fun c => { c with direction := w.2 } else .error .range
      | none => .error .range) ∧
    TakesWord (terminalField r) "PULL-UP" [("ON", true), ("OFF", false)] (fun b c => { c with pullUp := b }) ∧
    TakesWord (terminalField r) "ACTIVE-LEVEL" [("HIGH", Level.high), ("LOW", .low)] (fun l c => { c with active := l }) ∧
    (∀ n v, n ∉ ["ROLE-AND-OBJECT", "DIRECTION", "PULL-UP", "ACTIVE-LEVEL"].map String.toList →
      terminalField r n v = .error .badForm)) ∧
  (TakesTerminal pointField "COIL-N-TERMINAL" (fun t c => { c with coilN := t }) ∧
    TakesTerminal pointField "COIL-R-TERMINAL" (fun t c => { c with coilR := t }) ∧
    TakesTerminal pointField "DETECTION-N-TERMINAL" (fun t c => { c with detN := t }) ∧
    TakesTerminal pointField "DETECTION-R-TERMINAL" (fun t c => { c with detR := t }) ∧
    TakesNumber pointField "PULSE-LENGTH" 20 500 (fun d c => { c with pulseLength := d }) ∧
    (∀ n v, n ∉ ["COIL-N-TERMINAL", "COIL-R-TERMINAL", "DETECTION-N-TERMINAL", "DETECTION-R-TERMINAL",
      "PULSE-LENGTH"].map String.toList → pointField n v = .error .badForm)) ∧
  (let short := fun (n : Nat) => decide (n ≤ 99999)
   let sections := fun name lo hi write => TakesList routeField name lo hi digits short
     (fun n => decide (n ≤ 127)) write
   let requirements := fun name hi write => TakesList routeField name 0 hi
     (fun (a : Nat × PointPos) => digits a.1 ++ (if a.2 = .n then ".N" else ".R").toList) (fun a => short a.1)
     (fun a => decide (a.1 ≤ 63)) write
   TakesNumberOrNone routeField "ENTRY-SIGNAL" 0 95 (fun g c => { c with entry := g }) ∧
    routeField "EXIT".toList "BUFFER".toList = .ok (fun c => { c with exit := .buffer }) ∧
    (∀ n ≤ 99999,
      routeField "EXIT".toList ("SIGNAL.".toList ++ digits n) =
        (if n ≤ 95 then .ok fun c => { c with exit := .signal n } else .error .range) ∧
      routeField "EXIT".toList ("ROAD.".toList ++ digits n) =
        (if n ≤ 23 then .ok fun c => { c with exit := .road n } else .error .range)) ∧
    TakesWord routeField "TYPE" [("MAIN", RouteType.main), ("SHUNT", .shunt)] (fun t c => { c with type := t }) ∧
    sections "PATH" 1 12 (fun l c => { c with path := l }) ∧ sections "OVERLAP" 0 2 (fun l c => { c with overlap := l }) ∧
    sections "APPROACH" 0 3 (fun l c => { c with approach := l }) ∧
    requirements "POINT-REQUIREMENTS" 10 (fun l c => { c with points := l }) ∧
    requirements "FLANK-REQUIREMENTS" 6 (fun l c => { c with flanks := l }) ∧
    TakesPair routeField "BRIDGE-REQUIREMENT" 23 [("A", BridgeEnd.a), ("B", .b)]
      (fun b c => { c with bridge := some b }) (.ok fun c => { c with bridge := none }) ∧
    TakesNumber routeField "APPROACH-RELEASE-TIME" 0 120 (fun d c => { c with approachRelease := d }) ∧
    TakesNumber routeField "OVERLAP-RELEASE-TIME" 0 60 (fun d c => { c with overlapRelease := d }) ∧
    (∀ n v, n ∉ ["ENTRY-SIGNAL", "EXIT", "TYPE", "PATH", "OVERLAP", "APPROACH", "POINT-REQUIREMENTS",
      "FLANK-REQUIREMENTS", "BRIDGE-REQUIREMENT", "APPROACH-RELEASE-TIME", "OVERLAP-RELEASE-TIME"].map String.toList →
      routeField n v = .error .badForm)) ∧
  (∀ c : SignalCfg, c.lamps = (match c.head with
      | .two => [Lamp.red, .green]
      | .three => [.red, .yellow, .green]
      | .four => [.red, .yellow, .yellow2, .green]) ++ if c.shuntLamp = true then [.shunt] else []) ∧
  (∀ base : SignalCfg,
    let field := signalField base
    TakesPair field "LOCATION" 127
      [("A", EndName.a), ("B", .b), ("TOE", .toe), ("NORMAL", .normal), ("REVERSE", .reverse)]
      (fun l c => { c with location := some l }) (.ok fun c => { c with location := none }) ∧
    TakesWord field "HEAD-TYPE" [("TWO", HeadType.two), ("THREE", .three), ("FOUR", .four)] (fun _ c => c) ∧
    TakesWord field "SHUNT-LAMP" [("YES", true), ("NO", false)] (fun _ c => c) ∧
    TakesNumberOrNone field "STOP-SECTION" 0 127 (fun x c => { c with stopSection := x }) ∧
    (∀ name lamp, ∀ write : Option TermId → SignalCfg → SignalCfg,
      (name, lamp, write) ∈ [
        ("RED", Lamp.red, fun t (c : SignalCfg) => { c with red := t }), ("YELLOW", .yellow, fun t c => { c with yellow := t }),
        ("YELLOW2", .yellow2, fun t c => { c with yellow2 := t }), ("GREEN", .green, fun t c => { c with green := t }),
        ("SHUNT", .shunt, fun t c => { c with shunt := t })] →
      (lamp ∈ base.lamps → TakesTerminal field name write) ∧
      (lamp ∉ base.lamps → ∀ v, field name.toList v = .error .badForm)) ∧
    (∀ n v, n ∉ ["LOCATION", "HEAD-TYPE", "SHUNT-LAMP", "STOP-SECTION", "RED", "YELLOW", "YELLOW2", "GREEN",
      "SHUNT"].map String.toList → field n v = .error .badForm)) ∧
  (∀ (s : State) (n : Nat) (fs : List (Text × Text)),
    let old : SignalCfg := ((s.signal? n).map fun r => r.cfg).getD {}
    let named := fun {β : Type} (name : String) (words : List (String × β)) =>
      ((fs.filter fun f => f.1 = name.toList).filterMap fun f => pick words f.2).getLast?
    let new : SignalCfg := { old with
      head := (named "HEAD-TYPE" [("TWO", HeadType.two), ("THREE", .three), ("FOUR", .four)]).getD old.head
      shuntLamp := (named "SHUNT-LAMP" [("YES", true), ("NO", false)]).getD old.shuntLamp }
    let kept := fun (l : Lamp) (t : Option TermId) => if l ∈ new.lamps then t else none
    signalBase fs n s = { new with
      red := kept .red old.red, yellow := kept .yellow old.yellow, yellow2 := kept .yellow2 old.yellow2
      green := kept .green old.green, shunt := kept .shunt old.shunt }) ∧
  ((∀ q : Text, '"' ∉ q →
      let shown := ∀ c ∈ q, 32 ≤ c.toNat ∧ c.toNat ≤ 126
      trainField "TAG".toList ('"' :: q ++ ['"']) =
        (if 1 ≤ q.length ∧ q.length ≤ 6 ∧ shown ∧ ' ' ∉ q then .ok fun c => { c with tag := some q } else .error .range) ∧
      trainField "DESTINATION".toList ('"' :: q ++ ['"']) =
        (if q.length ≤ 15 ∧ shown then .ok fun c => { c with destination := q } else .error .range)) ∧
    trainField "TAG".toList "NONE".toList = .ok (fun c => { c with tag := none }) ∧
    (∀ name ∈ ["START-DUTY", "START-DUTY-V0"], TakesNumber trainField name 0 999 (fun d c => { c with v0 := d })) ∧
    (∀ name ∈ ["TOP-DUTY", "TOP-DUTY-VMAX"], TakesNumber trainField name 1 1000 (fun d c => { c with vmax := d })) ∧
    TakesNumber trainField "ACCEL-RATE" 1 255 (fun d c => { c with accel := d }) ∧
    TakesNumber trainField "BRAKE-RATE" 1 255 (fun d c => { c with brake := d }) ∧
    TakesNumber trainField "EMERGENCY-RATE" 16 2032 (fun d c => { c with emergency := d }) ∧
    (∀ n v, n ∉ ["TAG", "DESTINATION", "START-DUTY", "START-DUTY-V0", "TOP-DUTY", "TOP-DUTY-VMAX", "ACCEL-RATE",
      "BRAKE-RATE", "EMERGENCY-RATE"].map String.toList → trainField n v = .error .badForm)) ∧
  ((∀ name ∈ ["STEPS-PER-TURN", "STEPS-PER-TURN-N"], ∀ n ≤ 99999, bridgeField name.toList (digits n) =
      if 400 ≤ n ∧ n ≤ 12800 ∧ n % 2 = 0 then .ok fun c => { c with steps := n } else .error .range) ∧
    (∀ name ∈ ["MINIMUM-RATE", "MINIMUM-RATE-R_MIN"], TakesNumber bridgeField name 10 2000 (fun d c => { c with rMin := d })) ∧
    (∀ name ∈ ["MAXIMUM-RATE", "MAXIMUM-RATE-R_MAX"], TakesNumber bridgeField name 10 4000 (fun d c => { c with rMax := d })) ∧
    TakesNumber bridgeField "ACCELERATION" 10 20000 (fun d c => { c with accel := d }) ∧
    (∀ n v, n ∉ ["STEPS-PER-TURN", "STEPS-PER-TURN-N", "MINIMUM-RATE", "MINIMUM-RATE-R_MIN", "MAXIMUM-RATE",
      "MAXIMUM-RATE-R_MAX", "ACCELERATION"].map String.toList → bridgeField n v = .error .badForm)) ∧
  ((∀ name ∈ ["POSITION", "POSITION-P"], TakesNumber roadField name 0 12799 (fun d c => { c with position := d })) ∧
    TakesNumberOrNone roadField "SECTION" 0 127 (fun x c => { c with sec := x }) ∧
    TakesWord roadField "BRIDGE-SIDE-END" [("A", BridgeEnd.a), ("B", .b)] (fun e c => { c with bridgeEnd := e }) ∧
    (∀ n v, n ∉ ["POSITION", "POSITION-P", "SECTION", "BRIDGE-SIDE-END"].map String.toList →
      roadField n v = .error .badForm)) ∧
  (TakesTerminal showField "BUTTON-TERMINAL" (fun t c => { c with button := t }) ∧
    TakesTerminal showField "LAMP-TERMINAL" (fun t c => { c with lamp := t }) ∧
    TakesNumberOrNone showField "TRAIN" 0 31 (fun t c => { c with train := t }) ∧
    TakesList showField "LEGS" 1 8
      (fun (l : Leg) => (l.route.map digits).getD "NONE".toList ++ '.' :: digits l.step ++ '.' :: digits l.dwell ++ '.' ::
        (l.target.map fun t => digits t.1 ++ (if t.2 = .a then ".A" else ".B").toList).getD "NONE".toList)
      (fun l => l.route.all (fun r => decide (r ≤ 99999)) && decide (l.step ≤ 99999) && decide (l.dwell ≤ 99999) &&
        l.target.all fun t => decide (t.1 ≤ 99999))
      (fun l => l.route.all (fun r => decide (r ≤ 255)) && decide (1 ≤ l.step ∧ l.step ≤ 127) && decide (l.dwell ≤ 120) &&
        l.target.all fun t => decide (t.1 ≤ 23))
      (fun l c => { c with legs := l }) ∧
    TakesNumber showField "COOL-DOWN" 0 600 (fun d c => { c with coolDown := d }) ∧
    TakesNumber showField "LEG-TIMEOUT" 10 600 (fun d c => { c with legTimeout := d }) ∧
    TakesWord showField "ENABLED" [("YES", true), ("NO", false)] (fun b c => { c with enabled := b }) ∧
    (∀ n v, n ∉ ["BUTTON-TERMINAL", "LAMP-TERMINAL", "TRAIN", "LEGS", "COOL-DOWN", "LEG-TIMEOUT", "ENABLED"].map
      String.toList → showField n v = .error .badForm)) ∧
  (({} : SectionCfg) = { kind := .plain, endA := .buffer, endB := .buffer, endToe := .buffer, endNormal := .buffer
                         endReverse := .buffer, point := none, detector := none, clearDelay := 300, speedLimit := 127
                         channel := none, sense := .plus, platform := none } ∧
    ({} : TerminalCfg) = { direction := .sense, pullUp := true, role := .off, active := .low } ∧
    ({} : PointCfg) = { coilN := none, coilR := none, detN := none, detR := none, pulseLength := 100 } ∧
    ({} : RouteCfg) = { entry := none, exit := .buffer, type := .main, path := [], points := [], flanks := []
                        overlap := [], approach := [], bridge := none, approachRelease := 30, overlapRelease := 10 } ∧
    ({} : SignalCfg) = { location := none, head := .two, shuntLamp := false, red := none, yellow := none
                         yellow2 := none, green := none, shunt := none, stopSection := none } ∧
    ({} : TrainCfg) = { tag := none, destination := [], v0 := 100, vmax := 800, accel := 16, brake := 16
                        emergency := 2032, runList := [], runMode := .once } ∧
    ({} : BridgeCfg) = { steps := 3200, rMin := 100, rMax := 800, accel := 400 } ∧
    ({} : RoadCfg) = { position := 0, sec := none, bridgeEnd := .a } ∧
    ({} : ShowCfg) = { button := none, lamp := none, train := none
                       legs := [{ route := none, step := 20, dwell := 10, target := none }]
                       coolDown := 60, legTimeout := 120, enabled := true }) ∧
  (∀ (s : State) (k : Nat) (old : TerminalCfg),
    let t := termOfKey k
    let new := s.terminal t
    let fresh := { s with fc := { s.fc with live := Table.put s.fc.live k {} } }
    reownTerminal k old s =
      if old.direction = new.direction ∧ old.role = new.role ∧ old.active = new.active then s
      else ownerTakes t new.role (s.termLive t).handed none (match old.role with
        | .detect x => refreshSection x fresh
        | .pointDet p _ => refreshPoint p fresh
        | _ => fresh))

/-- DEF DELETE makes the record ABSENT (R9): a section's occupancy becomes CLEAR first, with its event if it was
OCCUPIED (the model's choice, log 30), a module that was DEFINED has the chain reset (R21), a terminal is read at the
defaults (R22, R23), the bridge that was DEFINED becomes UNHOMED (R124) and a road's going has the facings judged
(R125). The order of the owners of a terminal is the model's choice (log 60). That deleting a bridge record that is
ABSENT reports nothing is the model's choice (log 70). -/
def Obligations.DeletionsMakeRecordsAbsent : Prop :=
  ∀ (s : State) (n : Nat), s.Ready → s.mode = .config → s.ss.save = none →
    (n < 128 → exec (.defDelete "SECTION".toList (.num n)) s = .next (deliver (workOut s
      (let t := setOccupied n false s; { t with sections := Table.drop t.sections n }), .ok .bare))) ∧
    (n < 40 → exec (.defDelete "MODULE".toList (.num n)) s = .next (deliver (
      if Table.find s.fc.modules n = none then s
      else chainReset { s with fc := { s.fc with modules := Table.drop s.fc.modules n } }, .ok .bare))) ∧
    (∀ m t, m < 40 → t < 16 → exec (.defDelete "TERMINAL".toList (.terminal m t)) s = .next (deliver (workOut s
      (reownTerminal (16 * m + t) (s.terminal ⟨m, t⟩)
        { s with fc := { s.fc with terminals := Table.drop s.fc.terminals (16 * m + t) } }), .ok .bare))) ∧
    (n < 64 → (∀ r, s.point? n = some r → r.phase = .atRest) →
      exec (.defDelete "POINT".toList (.num n)) s = .next (deliver (workOut s
        { s with pu := { s.pu with points := Table.drop s.pu.points n } }, .ok .bare))) ∧
    (n < 256 → exec (.defDelete "ROUTE".toList (.num n)) s = .next (deliver (workOut s
      { s with ix := { s.ix with routes := Table.drop s.ix.routes n } }, .ok .bare))) ∧
    (n < 96 → exec (.defDelete "SIGNAL".toList (.num n)) s = .next (deliver (workOut s
      { s with ix := { s.ix with signals := Table.drop s.ix.signals n } }, .ok .bare))) ∧
    (n < 32 → exec (.defDelete "TRAIN".toList (.num n)) s = .next (deliver (workOut s
      ({ s with tt := { s.tt with trains := Table.drop s.tt.trains n } }.hand (.trainChange n .other)), .ok .bare))) ∧
    (¬ s.tu.ten = true → exec (.defDelete "TURNTABLE".toList .unnamed) s = .next (deliver (workOut s
      (if s.tu.bridge = none then s
        else ({ s with tu := { s.tu with
          bridge := none, state := .unhomed, position := none, faceA := none, faceB := none } }.report
            (.turnUnhomed true)).hand .bridgeChange), .ok .bare))) ∧
    (n < 24 → ¬ s.tu.ten = true → exec (.defDelete "ROAD".toList (.num n)) s = .next (deliver (workOut s
      (judgeFacings { s with tu := { s.tu with roads := Table.drop s.tu.roads n } }), .ok .bare))) ∧
    (n < 8 → exec (.defDelete "SHOW".toList (.num n)) s = .next (deliver (workOut s
      { s with vu := { s.vu with shows := Table.drop s.vu.shows n } }, .ok .bare))) ∧
    (∀ (α : Type) (t : Table α) (k : Nat), Table.find (Table.drop t k) k = none ∧
      ∀ j, j ≠ k → Table.find (Table.drop t k) j = Table.find t j)

/-- The eight checks, whole: TOPOLOGY (R15), PATH (R16), ROLE (R17), STOPCHAN and POLARITY (R18), TURNTABLE (R19),
RUNS and CALIBRATION (R20): the passes of each in their order, which record each names, and what passes. That PATH
takes the lowest-numbered of several BRIDGE sections for the bridge section is the model's choice (log 51), and so is
the answer for an end that two roads name (log 37). -/
def Obligations.ChecksJudgeByR15ToR20 : Prop :=
  ∀ s : State, s.tablesWf = true →
    (∃ first second third, s.checkTopology = first.or (second.or third) ∧
      Names first s.sections .sec (fun x r =>
        (∀ e ∈ r.cfg.kind.ends, ∀ t f, r.cfg.neighbour e = .sectionEnd t f →
          t ≠ x ∧ ∃ q, s.section? t = some q ∧ f ∈ q.cfg.kind.ends ∧ q.cfg.neighbour f = .sectionEnd x e) ∧
        (r.cfg.kind = .point → ∃ p, r.cfg.point = some p ∧ s.point? p ≠ none ∧
          ∀ y q, s.section? y = some q → y < x → q.cfg.kind = .point → q.cfg.point ≠ some p)) ∧
      Names second s.pu.points .point (fun p _ => ∃ e ∈ s.sections, e.2.cfg.kind = .point ∧ e.2.cfg.point = some p) ∧
      Names third s.ix.signals .signal (fun g r => ∃ l, r.cfg.location = some l ∧
        (∃ q, s.section? l.1 = some q ∧ l.2 ∈ q.cfg.kind.ends ∧ q.cfg.neighbour l.2 ≠ .buffer) ∧
        ∀ h a, s.signal? h = some a → h < g → a.cfg.location ≠ some l)) ∧
    Names s.checkPath s.ix.routes .route (fun _ r =>
      let c := r.cfg
      let stated : Stated := { points := c.points, bridge := c.bridge }
      let named := c.points.map fun a => a.1
      (1 ≤ c.path.length ∧ c.path.length ≤ 12 ∧ (c.path ++ c.overlap).Nodup ∧
        (∀ x ∈ c.path ++ c.overlap ++ c.approach, s.section? x ≠ none) ∧
        (∀ x ∈ c.approach, x ∉ c.path ++ c.overlap) ∧ (c.type = .shunt → c.overlap = [])) ∧
      (∃ g, c.entry = some g ∧ ∃ a, s.signal? g = some a ∧ ∃ l, a.cfg.location = some l ∧
        ∃ last, s.Follows stated l.1 l.2 c.path last ∧ ∃ far, s.farEnd stated last.1 last.2 = some far ∧
          (c.overlap ≠ [] → ∃ end_, s.Follows stated last.1 far c.overlap end_) ∧
          (match c.exit with
            | .signal h => ∃ b, s.signal? h = some b ∧ b.cfg.location = some (last.1, far)
            | .buffer => ∃ q, s.section? last.1 = some q ∧ q.cfg.neighbour far = .buffer
            | .road k => ∃ d, Table.find s.tu.roads k = some d ∧ d.sec = some last.1)) ∧
      (∀ x ∈ c.path ++ c.overlap, ∀ q, s.section? x = some q → q.cfg.kind = .point →
        ∃ p, q.cfg.point = some p ∧ p ∈ named) ∧
      (∀ p ∈ named, ∃ x ∈ c.path ++ c.overlap, ∃ q, s.section? x = some q ∧ q.cfg.kind = .point ∧ q.cfg.point = some p ∧
        ∀ y a, s.section? y = some a → y < x → a.cfg.kind = .point → a.cfg.point ≠ some p) ∧
      named.Nodup ∧ (∀ f ∈ c.flanks, f.1 ∉ named ∧ s.point? f.1 ≠ none) ∧
      (c.bridge ≠ none ↔ ∃ b ∈ c.path, s.bridgeSection = some b) ∧
      (∀ b, c.bridge = some b → Table.find s.tu.roads b.1 ≠ none)) ∧
    (∃ first second third fourth fifth, s.checkRole = first.or (second.or (third.or (fourth.or fifth))) ∧
      Names first s.fc.terminals (fun k => .terminal (termOfKey k)) (fun k c =>
        let t := termOfKey k
        c.role ≠ .off → k / 16 < s.chainLength ∧
          (∃ m, Table.find s.fc.modules (k / 16) = some m ∧ (match c.role with
            | .coil _ _ => m.type = .driver
            | .signalLamp _ _ | .mimic _ | .auxOut _ => m.type ≠ .detector
            | _ => True)) ∧
          (match c.role with
            | .detect x => ∃ r, s.section? x = some r ∧ r.cfg.detector = some t
            | .pointDet p pos => ∃ r, s.point? p = some r ∧ (if pos = .n then r.cfg.detN else r.cfg.detR) = some t
            | .coil p pos => ∃ r, s.point? p = some r ∧ (if pos = .n then r.cfg.coilN else r.cfg.coilR) = some t
            | .button n => ∃ w, s.show? n = some w ∧ w.cfg.button = some t
            | .signalLamp g lamp => ∃ r, s.signal? g = some r ∧ lamp ∈ r.cfg.lamps ∧ r.cfg.lampTerminal lamp = some t
            | .mimic (.sectionOcc x) | .mimic (.sectionLock x) => s.section? x ≠ none
            | .mimic (.pointPos p _) => s.point? p ≠ none
            | .mimic (.signalProceed g) => s.signal? g ≠ none
            | .mimic (.road k) => Table.find s.tu.roads k ≠ none
            | .mimic (.showLamp n) => ∃ w, s.show? n = some w ∧ w.cfg.lamp = some t
            | .stopButton | .auxIn _ | .auxOut _ | .off => True)) ∧
      (let carries := fun (t : Option TermId) (r : Role) => ∀ id, t = some id → (s.terminal id).role = r
       Names second s.sections .sec (fun x r => carries r.cfg.detector (.detect x)) ∧
       Names third s.pu.points .point (fun p r => carries r.cfg.coilN (.coil p .n) ∧ carries r.cfg.coilR (.coil p .r) ∧
         carries r.cfg.detN (.pointDet p .n) ∧ carries r.cfg.detR (.pointDet p .r)) ∧
       Names fourth s.ix.signals .signal (fun g r =>
         ∀ l ∈ r.cfg.lamps, carries (r.cfg.lampTerminal l) (.signalLamp g l)) ∧
       Names fifth s.vu.shows .show (fun n w =>
         carries w.cfg.button (.button n) ∧ carries w.cfg.lamp (.mimic (.showLamp n))))) ∧
    (let bridges := s.sections.filter fun e => e.2.cfg.kind == .bridge
     let meets := fun (r : SectionRec) => ∃ e ∈ r.cfg.kind.ends, r.cfg.neighbour e = .turntable
     (bridges = [] → s.tu.roads = [] → (∀ e ∈ s.sections, ¬ meets e.2) → s.checkTurntable = none) ∧
     (bridges = [] → s.tu.roads ≠ [] ∨ (∃ e ∈ s.sections, meets e.2) → s.checkTurntable = some .turntable) ∧
     (∀ a b rest, bridges = a :: b :: rest → s.checkTurntable = some (.sec b.1)) ∧
     (∀ b, bridges = [b] →
       let shares := ∃ c, b.2.cfg.channel = some c ∧ ∃ e ∈ s.sections, e.1 ≠ b.1 ∧ e.2.cfg.channel = some c
       let wrong := b.2.cfg.endA ≠ .turntable ∨ b.2.cfg.endB ≠ .turntable ∨ shares
       (wrong → s.checkTurntable = some (.sec b.1)) ∧
       (¬ wrong → s.tu.bridge = none → s.checkTurntable = some .turntable) ∧
       (∀ br, ¬ wrong → s.tu.bridge = some br → ∃ first second, s.checkTurntable = first.or second ∧
         Names first s.tu.roads .road (fun k d =>
           d.position < br.steps ∧
           (∀ j o, Table.find s.tu.roads j = some o → j < k → o.position ≠ d.position ∧ o.sec ≠ d.sec) ∧
           ∃ x, d.sec = some x ∧ ∃ q, s.section? x = some q ∧ q.cfg.kind = .plain ∧
             q.cfg.neighbour d.bridgeEnd.toEnd = .turntable) ∧
         Names second s.sections .sec (fun x q => x ≠ b.1 → ∀ e ∈ q.cfg.kind.ends, q.cfg.neighbour e = .turntable →
           ∃ k d, Table.find s.tu.roads k = some d ∧ d.sec = some x ∧ d.bridgeEnd.toEnd = e)))) ∧
    Names s.checkStopchan s.ix.signals .signal (fun _ g =>
      ∀ x, g.cfg.stopSection = some x → ∃ r c, s.section? x = some r ∧ r.cfg.channel = some c ∧
        ∀ y q, s.section? y = some q → q.cfg.channel = some c → y = x) ∧
    Names s.checkPolarity s.sections .sec (fun _ r =>
      ∀ e ∈ r.cfg.kind.ends, ∀ t f q, r.cfg.neighbour e = .sectionEnd t f → s.section? t = some q →
        r.cfg.channel ≠ none → q.cfg.channel = r.cfg.channel →
        (e.polarityB ≠ f.polarityB ∧ r.cfg.sense = q.cfg.sense) ∨
        (e.polarityB = f.polarityB ∧ r.cfg.sense ≠ q.cfg.sense)) ∧
    (∃ first second, s.checkRuns = first.or second ∧
      Names first s.vu.shows .show (fun _ w =>
        (∃ n, w.cfg.train = some n ∧ s.train? n ≠ none) ∧
        ∀ l ∈ w.cfg.legs, (∀ r, l.route = some r → s.route? r ≠ none) ∧
          (∀ k e, l.target = some (k, e) → Table.find s.tu.roads k ≠ none)) ∧
      Names second s.tt.trains .train (fun _ t => ∀ r ∈ t.cfg.runList, s.route? r ≠ none)) ∧
    Names s.checkCalibration s.tt.trains .train (fun _ t => t.cfg.v0 < t.cfg.vmax)

/-! ## Points and the point supply (chapter 3) -/

/-- POINT p N and POINT p R: the first condition of R51's table decides, and a throw taken is taken by the point's throw
phase as R43 gives; a PULSING point with no commanded position joins the queue by the model's choice (log 39). -/
def Obligations.PointCommandsFollowR51AndR43 : Prop :=
  (∀ (s : State) (p : Nat) (pos : PointPos), s.Ready → exec (.point p pos) s = .next (deliver (
    if 64 ≤ p then (workOut s s, .no .range none)
    else match s.point? p with
      | none => (workOut s s, .no .unknown none)
      | some r =>
        let cleared := if r.failed = true then (s.setPoint p fun q => { q with failed := false }).askReexamine else s
        if s.ss.stop = true then (workOut s s, .no .stopped none)
        else if r.locks ≠ [] then (workOut s s, .no .locked none)
        else if r.phase = .atRest ∧ r.position = pos.position then (workOut s cleared, .ok .bare)
        else if s.pointOccupied p = true then (workOut s s, .no .occupied none)
        else if 16 ≤ s.pu.queue.length ∧ (r.phase = .atRest ∨
            ((r.phase = .pulsing ∨ r.phase = .awaiting) ∧ r.commanded ≠ some pos)) then
          (workOut s s, .no .full none)
        else (workOut s (throwPoint p pos cleared), .ok .bare)))) ∧
  (∀ (s : State) (p : Nat) (pos : PointPos) (r : PointRec), s.point? p = some r →
    let queued := { s with pu := { s.pu with queue := s.pu.queue ++ [(p, pos)] } }
    let replaced := { s with pu := { s.pu with queue := s.pu.queue.map fun e => if e.1 = p then (p, pos) else e } }
    let commanded := fun (ph : Phase) (t : State) =>
      if r.position = pos.moving then t.setPoint p fun q => { q with commanded := some pos, phase := ph, detTimer := none }
      else ((t.setPoint p fun q => { q with
        commanded := some pos, phase := ph, detTimer := none, position := pos.moving }).report
          (.pointMoving p pos)).hand (.pointChange p .moved)
    throwPoint p pos s = match r.phase with
      | .atRest => if r.position = pos.position then s else considerPulse (commanded .queued queued)
      | .queued => if r.commanded = some pos then s else commanded .queued replaced
      | .pulsing => if r.commanded = some pos then s else considerPulse (commanded .pulsingQueued queued)
      | .awaiting => if r.commanded = some pos then s else considerPulse (commanded .queued queued)
      | .pulsingQueued => if r.commanded = some pos then s else commanded .pulsingQueued replaced)

/-- The recharge timer's expiry makes the supply READY and a pulse start is considered (R44). A pulse starts only from
READY, with the chain HEALTHY and no emergency stop, for an entry of the queue whose section is CLEAR and whose locks
all require that position; the oldest entry is taken first, an entry that may not start is dropped with cause OCC or
LOCK and leaves its point UNKNOWN with no commanded position, at rest, which the interlocking is handed; the point
whose pulse starts is PULSING; the queue is worked until one starts or it is empty (R45), and the pulse lasts the
pulse length in scans, rounded up (R46). That RECHARGE_TIMER_EXPIRY with no recharge running does nothing is the
model's choice (log 2), and so is the position required by a route whose flank list names the point twice (log 72). -/
def Obligations.PulsesStartOnlyByR45 : Prop :=
  (∀ s : State, s.AtRest →
    (∀ due, s.pu.supply = .recharging due → exec .rechargeTimerExpiry s = .next (arbitrate (workOut s
      (considerPulse { s with now := max s.now due, pu := { s.pu with supply := .ready } })))) ∧
    ((∀ due, s.pu.supply ≠ .recharging due) → exec .rechargeTimerExpiry s = .next (arbitrate (workOut s s)))) ∧
  (∀ s : State,
    (s.pu.supply ≠ .ready ∨ s.fc.condition ≠ .healthy ∨ s.ss.stop = true ∨ s.pu.queue = [] → considerPulse s = s) ∧
    (∀ q, s.pu.supply = .ready → (considerPulse s).pu.supply = .pulsing q →
      s.fc.condition = .healthy ∧ s.ss.stop = false ∧ (q.point, q.pos) ∈ s.pu.queue ∧
      s.pointOccupied q.point = false ∧
      (∀ r, s.point? q.point = some r → ∀ k ∈ r.locks, ∀ c, s.route? k = some c →
        c.cfg.requires q.point ≠ some q.pos.other) ∧
      q.count = 0 ∧ q.offAt = none ∧ q.startedAt = s.fc.composed ∧
      (∀ r, s.point? q.point = some r →
        q.scans = (r.cfg.pulseLength + s.fc.periodInForce - 1) / s.fc.periodInForce)) ∧
    (s.pu.supply = .ready → s.fc.condition = .healthy → s.ss.stop = false →
      (considerPulse s).pu.supply = .ready → (considerPulse s).pu.queue = [])) ∧
  (∀ (s : State) (p : Nat) (pos : PointPos) (rest : List (Nat × PointPos)), s.pu.supply = .ready →
    s.fc.condition = .healthy → s.ss.stop = false → s.pu.queue = (p, pos) :: rest →
    let taken := { s with pu := { s.pu with queue := rest } }
    let against := ∃ r, s.point? p = some r ∧ ∃ k ∈ r.locks, ∃ c, s.route? k = some c ∧ c.cfg.requires p = some pos.other
    let dropped := fun (cause : DropCause) => considerPulse (((taken.setPoint p fun r => { r with
      position := .unknown, commanded := none
      phase := if r.phase = .pulsingQueued then .pulsing else .atRest }).report (.pointDropped p cause)).hand
        (.pointChange p .dropped)).askReexamine
    let started := taken.setPoint p fun r => { r with phase := .pulsing }
    let length := ((s.point? p).map fun r => r.cfg.pulseLength).getD 0
    considerPulse s =
      if s.pointOccupied p = true then dropped .occ
      else if against then dropped .lock
      else { started with pu := { started.pu with supply := .pulsing {
        point := p, pos := pos, startedAt := s.fc.composed
        scans := (length + s.fc.periodInForce - 1) / s.fc.periodInForce } } }.askReexamine)

/-- A pulse counts every UPDATE of an image composed after its start, is supplied OFF at the last of its scans and
ends at an UPDATE of an image composed after the OFF, that of a stop's cut too (R46); its end starts the recharge and
leaves the point by R47; an AWAITING point whose detection timer expires becomes FAILED (R48). The detection reading
of a point and what a change of it does: the adoption of an unknown position, the regaining, a late arrival and a loss
at rest (R42), and the throw completed by the reading it awaits (R47). That DETECTION_TIMEOUT of a point that is not
AWAITING does nothing is the model's choice (log 2); a PULSING point left without a commanded position ends AT-REST by
log 38. -/
def Obligations.PulsesEndByR46AndR47 : Prop :=
  (∀ (s : State) (q : Pulse) (n : Nat), s.pu.supply = .pulsing q →
    (∀ a, q.offAt = some a → a < n → pointsUpdate n s = endPulse s) ∧
    ((∀ a, q.offAt = some a → n ≤ a) → n ≤ q.startedAt → pointsUpdate n s = s) ∧
    ((∀ a, q.offAt = some a → n ≤ a) → q.startedAt < n →
      pointsUpdate n s = { s with pu := { s.pu with supply := .pulsing { q with
        count := q.count + 1
        offAt := if q.scans ≤ q.count + 1 then q.offAt.or (some s.fc.composed) else q.offAt } } })) ∧
  (∀ (s : State) (p : Nat) (r : PointRec), s.point? p = some r →
    let present := fun (pos : PointPos) (t : Option TermId) =>
      t.any fun id => (s.terminal id).role == .pointDet p pos && (s.termLive id).handed == some true
    let detected := r.cfg.detN.isSome && r.cfg.detR.isSome
    let reading := match detected, present .n r.cfg.detN, present .r r.cfg.detR with
      | true, true, true => Reading.both
      | true, true, false => .n
      | true, false, true => .r
      | _, _, _ => .neither
    let noted := s.setPoint p fun q => { q with reading := reading }
    let told := fun (f : PointRec → PointRec) (rep : Report) (e : PointEvent) =>
      ((noted.setPoint p f).report rep).hand (.pointChange p e)
    (reading = r.reading → refreshPoint p s = s) ∧
    (reading ≠ r.reading → refreshPoint p s =
      if detected = false then noted
      else match r.phase, r.commanded with
        | .atRest, none => (match reading with
            | .n => told (fun q => { q with position := .normal, commanded := some .n }) (.pointAt p .n) .placed
            | .r => told (fun q => { q with position := .reverse, commanded := some .r }) (.pointAt p .r) .placed
            | _ => noted)
        | .atRest, some c =>
          if reading = c.reading then (match r.position with
            | .unknown => told (fun q => { q with position := c.position }) (.pointAt p c) .placed
            | .failed => told (fun q => { q with position := c.position }) (.pointLate p c) .placed
            | _ => noted)
          else (match r.position with
            | .normal | .reverse => told (fun q => { q with position := .unknown }) (.pointLost p) .moved
            | _ => noted)
        | .awaiting, some c =>
          if reading = c.reading then
            (let placed := told (fun q => { q with
              position := c.position, phase := .atRest, failed := false, detTimer := none }) (.pointAt p c) .placed
             if r.failed = true then placed.askReexamine else placed)
          else noted
        | _, _ => noted)) ∧
  (∀ (s : State) (q : Pulse) (r : PointRec), s.pu.supply = .pulsing q → s.point? q.point = some r →
    let t := { s with pu := { s.pu with supply := .recharging (s.now + 4000 * s.pu.recharge) } }
    endPulse s =
      if r.phase = .pulsingQueued then t.setPoint q.point fun a => { a with phase := .queued }
      else if r.commanded = none then t.setPoint q.point fun a => { a with phase := .atRest }
      else if r.cfg.detN.isSome = true ∧ r.cfg.detR.isSome = true ∧ r.reading ≠ q.pos.reading then
        t.setPoint q.point fun a => { a with
          phase := .awaiting, detTimer := some (s.now + 4000 * s.pu.detectTimeout) }
      else
        let u := ((t.setPoint q.point fun a => { a with
          position := q.pos.position, phase := .atRest, failed := false, detTimer := none }).report
            (.pointAt q.point q.pos)).hand (.pointChange q.point .placed)
        if r.failed = true then u.askReexamine else u) ∧
  (∀ (s : State) (p : Nat), s.AtRest →
    (∀ r d, s.point? p = some r → r.phase = .awaiting → r.detTimer = some d →
      exec (.detectionTimeout p) s = .next (arbitrate (workOut s
        ((({ s with now := max s.now d }.setPoint p fun q => { q with
          position := .failed, failed := true, phase := .atRest, detTimer := none }).report (.pointFailed p)).hand
            (.pointChange p .failed))))) ∧
    ((∀ r, s.point? p = some r → r.phase ≠ .awaiting ∨ r.detTimer = none) →
      exec (.detectionTimeout p) s = .next (arbitrate (workOut s s))))

/-! ## Routes and locking (chapter 4) -/

/-- The settable test, whole: a route is settable when every condition of R57 holds, with R58 for its points and its
bridge; the first that does not, in R57's order, gives the refusal. The position required by a route of a lock set
whose flank list names the point twice is the model's choice (log 72). -/
def Obligations.TheSettableTestIsR57AndR58 : Prop :=
  ∀ (s : State) (r : Nat) (q : RouteRec),
    let secs := q.cfg.path ++ q.cfg.overlap
    let reqs := q.cfg.points ++ q.cfg.flanks
    let ready := q.state = .idle ∧ s.ss.stop = false ∧ s.fc.condition = .healthy
    let mayStand := fun x => (q.cfg.type = .shunt ∧ q.cfg.path.getLast? = some x) ∨
      (q.cfg.bridge ≠ none ∧ s.bridgeSection = some x ∧ s.carriagePasses = true)
    let secOk := fun x => s.lockOf x = none ∧ (s.occupied x = true → mayStand x)
    let agree := fun (t : PointRec) (a : Nat × PointPos) =>
      ∀ k ∈ t.locks, ∀ c, s.route? k = some c → c.cfg.requires a.1 = some a.2
    let pointOk := fun (a : Nat × PointPos) => ∃ t, s.point? a.1 = some t ∧
      ((agree t a ∧ t.locks.length < 8 ∧ (t.position = a.2.position ∨ t.locks ≠ [])) ∨
        (t.locks = [] ∧ s.pointOccupied a.1 = false ∧ t.failed = false))
    let aligned := fun (b : Nat × BridgeEnd) => s.tu.state = .aligned ∧
      (if b.2 = .a then s.tu.faceA else s.tu.faceB) = some b.1
    let bridgeAgree := fun b => ∀ k ∈ s.tu.locks, ∀ c, s.route? k = some c → c.cfg.bridge = some b
    let bridgeOk := fun b => (bridgeAgree b ∧ s.tu.locks.length < 8 ∧ (aligned b ∨ s.tu.locks ≠ [])) ∨
      (s.tu.locks = [] ∧ moveRefusal s b.1 b.2 (.route r) = none)
    let entryOk := ∀ g, q.cfg.entry = some g →
      ∀ x ∈ s.ix.routes, x.1 ≠ r → x.2.cfg.entry = some g → x.2.state = .idle
    let roomOk := s.pu.queue.length +
      ((reqs.filter fun a => s.throwNeeded a.1 a.2 && throwAdds s a.1 a.2).map fun a => a.1).eraseDups.length ≤ 16
    (s.settable r q = none ↔ ready ∧ (∀ x ∈ secs, secOk x) ∧ (∀ a ∈ reqs, pointOk a) ∧
      (∀ b, q.cfg.bridge = some b → bridgeOk b) ∧ entryOk ∧ roomOk) ∧
    (q.state ≠ .idle → s.settable r q = some (.state, some (.route r))) ∧
    (q.state = .idle → s.ss.stop = true → s.settable r q = some (.stopped, none)) ∧
    (q.state = .idle → s.ss.stop = false → s.fc.condition ≠ .healthy → s.settable r q = some (.state, some .chain)) ∧
    (ready → ∀ before x rest, secs = before ++ x :: rest → (∀ y ∈ before, secOk y) →
      (s.lockOf x ≠ none → s.settable r q = some (.locked, some (.sec x))) ∧
      (s.lockOf x = none → s.occupied x = true → ¬ mayStand x → s.settable r q = some (.occupied, some (.sec x)))) ∧
    (ready → (∀ x ∈ secs, secOk x) →
      (∀ before a rest t, reqs = before ++ a :: rest → (∀ y ∈ before, pointOk y) → s.point? a.1 = some t → ¬ pointOk a →
        s.settable r q = some (
          if ¬ agree t a then .locked
          else if 8 ≤ t.locks.length then .limit
          else if s.pointOccupied a.1 = true then .occupied
          else .failed, some (.point a.1))) ∧
      ((∀ a ∈ reqs, pointOk a) →
        (∀ b, q.cfg.bridge = some b → ¬ bridgeOk b → ∃ c, s.settable r q = some (c, some .turntable) ∧
          (¬ bridgeAgree b → c = .locked) ∧ (bridgeAgree b → 8 ≤ s.tu.locks.length → c = .limit) ∧
          (s.tu.locks = [] → (moveRefusal s b.1 b.2 (.route r)).map (fun w => w.1) = some c)) ∧
        ((∀ b, q.cfg.bridge = some b → bridgeOk b) →
          (∀ g, q.cfg.entry = some g → ¬ entryOk → s.settable r q = some (.conflict, some (.signal g))) ∧
          (entryOk → ¬ roomOk → s.settable r q = some (.full, none)))))

/-- ROUTE SET (R59) and ROUTE STORE (R60, R61): the first condition of each table decides; a route set leaves the
request queue, its origin told, and a route stored enters SETTING or joins the queue. A store by a train or a show is
the same store with its origin and expiry. A re-examination (R62) visits the entries the queue holds when it starts,
oldest first: an entry whose route passes the settable test then leaves the queue, its origin told, and its route
enters SETTING; any other entry stays. -/
def Obligations.RoutesAreSetAndStored : Prop :=
  (∀ (s : State) (r : Nat), s.Ready →
     let stateOf := fun (t : State) => ((t.route? r).map fun q => q.state).getD .setting
     let told := match s.ix.requests.find? fun e => e.route == r with
       | none => s
       | some e => { s with ix := { s.ix with requests := s.ix.requests.filter fun e => e.route != r } }.hand
           (.requestStarted e.origin r)
     exec (.routeSet r) s = .next (deliver (
       if 256 ≤ r then (workOut s s, .no .range none)
       else match s.route? r with
         | none => (workOut s s, .no .unknown none)
         | some q =>
           if s.mode = .config then (workOut s s, .no .mode none)
           else match s.settable r q with
             | some w => (workOut s s, .no w.1 w.2)
             | none => (workOut s (enterSetting r q.cfg told), .ok (.route r (stateOf (enterSetting r q.cfg told)))))) ∧
     exec (.routeStore r) s = .next (deliver (
       if 256 ≤ r then (workOut s s, .no .range none)
       else match s.route? r with
         | none => (workOut s s, .no .unknown none)
         | some q =>
           if s.mode = .config then (workOut s s, .no .mode none)
           else if q.state ≠ .idle then (workOut s s, .no .state (some (.route r)))
           else if ∃ e ∈ s.ix.requests, e.route = r then (workOut s s, .ok (.routeQueued r))
           else if s.settable r q = none then
             (workOut s (enterSetting r q.cfg s), .ok (.route r (stateOf (enterSetting r q.cfg s))))
           else if 48 ≤ s.ix.requests.length then (workOut s s, .no .full none)
           else (workOut s ({ s with ix := { s.ix with requests := s.ix.requests ++ [Request.mk r .link none] } }.report
             (.routeQueued r .link)), .ok (.routeQueued r))))) ∧
  (∀ s : State, reexamine s = s.ix.requests.foldl (fun u e => visitRequest e u) s) ∧
  (∀ (s : State) (e : Request),
    (s.route? e.route = none → visitRequest e s = s) ∧
    (∀ q, s.route? e.route = some q →
      (s.settable e.route q ≠ none → visitRequest e s = s) ∧
      (s.settable e.route q = none →
        visitRequest e s = enterSetting e.route q.cfg (match s.ix.requests.find? fun a => a.route == e.route with
          | none => s
          | some a => { s with ix := { s.ix with requests := s.ix.requests.filter fun a => a.route != e.route } }.hand
              (.requestStarted a.origin e.route))))) ∧
  (∀ (s : State) (r : Nat) (origin : Origin) (expiry : Option Nat), storeRequest r origin expiry s =
    if 256 ≤ r then (s, .refused .range none)
    else match s.route? r with
      | none => (s, .refused .unknown none)
      | some q =>
        if s.mode = .config then (s, .refused .mode none)
        else if q.state ≠ .idle then (s, .refused .state (some (.route r)))
        else if ∃ e ∈ s.ix.requests, e.route = r then (s, .queued)
        else if s.settable r q = none then (enterSetting r q.cfg s, .started)
        else if 48 ≤ s.ix.requests.length then (s, .refused .full none)
        else ({ s with ix := { s.ix with requests := s.ix.requests ++ [Request.mk r origin expiry] } }.report
          (.routeQueued r origin), .queued))

/-- A route that enters SETTING (R64) has its sections' locks, stands in the lock set of every point it requires and
of the bridge it requires, and is SET when it is proven (R65) and otherwise SETTING with its timer at 60 s; no
occupancy and no other section's lock changes. What it asks for, in order: the locks, the throws of exactly the points
it requires that are not locked, not occupied, not failed and not in the required position, the move of a bridge that
no route locks and that does not stand as required, and the setting timer (R64); a move begun is taken by the shorter
way, clockwise on a tie (R131). A route in SETTING that is proven (R65), every point in its required position and the
bridge ALIGNED with its required end at its required road, is SET with its report, and else stays. A bridge move that
is refused there is told to the route as one that ended elsewhere (R66). The mark that the route asked the move in its
present setting is deduced (log 47). -/
def Obligations.SettingARouteLocksIt : Prop :=
  (∀ (s : State) (r : Nat) (q : RouteRec), s.route? r = some q →
     let t := enterSetting r q.cfg s
     (∀ x ∈ q.cfg.path ++ q.cfg.overlap, s.section? x ≠ none → t.lockOf x = some r) ∧
     (∀ x, x ∉ q.cfg.path ++ q.cfg.overlap → t.lockOf x = s.lockOf x) ∧
     (∀ x, t.occupied x = s.occupied x) ∧
     (∀ a ∈ q.cfg.points ++ q.cfg.flanks, ∀ p, t.point? a.1 = some p → r ∈ p.locks) ∧
     (q.cfg.bridge ≠ none → r ∈ t.tu.locks) ∧
     (∃ q', t.route? r = some q' ∧ q'.cfg = q.cfg ∧
       (q'.state = .set ∨ q'.state = .setting ∧ q'.settingTimer = some (s.now + 240000000)) ∧
       (q'.state = .set ↔
         (∀ a ∈ q.cfg.points ++ q.cfg.flanks, (t.point? a.1).map (fun p => p.position) = some a.2.position) ∧
         (∀ b, q.cfg.bridge = some b → t.tu.state = .aligned ∧
           (if b.2 = .a then t.tu.faceA else t.tu.faceB) = some b.1)))) ∧
  (∀ (s : State) (p : Nat) (pos : PointPos), s.throwNeeded p pos = true ↔ ∃ t, s.point? p = some t ∧
    t.locks = [] ∧ s.pointOccupied p = false ∧ t.failed = false ∧ t.position ≠ pos.position) ∧
  (∀ (s : State) (r : Nat) (c : RouteCfg),
    let requirements := c.points ++ c.flanks
    let began := ((s.setRoute r fun q => { q with state := .setting }).report (.routeState r .setting)).hand
      (.routeChange r .setting)
    let locked := (c.path ++ c.overlap).foldl (fun u x => u.setSection x fun a => { a with lock := some r }) began
    let joined := requirements.foldl (fun u a => u.setPoint a.1 fun p => { p with locks := setInsert r p.locks }) locked
    let held := if c.bridge = none then joined
      else { joined with tu := { joined.tu with locks := setInsert r joined.tu.locks } }
    let thrown := (requirements.filter fun a => s.throwNeeded a.1 a.2).foldl (fun u a => throwPoint a.1 a.2 u) held
    let moved := match c.bridge with
      | none => thrown
      | some (k, e) =>
        if s.tu.locks ≠ [] ∨ (s.tu.state = BridgeState.aligned ∧
            (if e = BridgeEnd.a then s.tu.faceA else s.tu.faceB) = some k) then thrown
        else match moveRefusal thrown k e (.route r), beginMove k e none (.route r) thrown with
          | some _, _ => thrown.hand (.moveEnded (.route r) .elsewhere)
          | none, (u, some _) => u.setRoute r fun q => { q with asked := true }
          | none, (u, none) => u
    enterSetting r c s = testProof r (moved.setRoute r fun q => { q with settingTimer := some (moved.now + 240000000) })) ∧
  (∀ (s : State) (b : BridgeCfg) (k : Nat) (e : BridgeEnd) (road : RoadCfg) (pos : Nat) (dir : Option MoveDir)
      (origin : Origin), s.tu.bridge = some b → Table.find s.tu.roads k = some road → s.tu.position = some pos →
    let target := if e = .a then road.position else (road.position + b.steps / 2) % b.steps
    let cw := (target + b.steps - pos) % b.steps
    let way : MoveDir := dir.getD (if cw ≤ b.steps - cw then .cw else .ccw)
    let begun := ({ s with tu := { s.tu with
      state := .moving, faceA := none, faceB := none, rate := b.rMin, tdir := (way == MoveDir.cw)
      move := some { target := target, road := k, bridgeEnd := e, dir := way
                     toGo := if way = MoveDir.cw then cw else b.steps - cw, origin := origin }
      interval := 4000000 / b.rMin, shadowInterval := 4000000 / b.rMin
      stepDue := some (s.now + 4000000 / b.rMin), rateDue := some (s.now + 40000) } }.report
        (.turnMoving k e way)).hand .bridgeChange
    (cw = 0 → beginMove k e dir origin s = (s, none)) ∧
    (cw ≠ 0 → beginMove k e dir origin s = (match s.aloneOnBridge with
      | none => begun
      | some n => { begun.setTrain n (fun t => { t with onTurn := true }) with
          tu := { begun.tu with carried := some n } }.hand (.holdsChange n), some way))) ∧
  (∀ (s : State) (r : Nat) (q : RouteRec), s.route? r = some q →
    let proven := (∀ a ∈ q.cfg.points ++ q.cfg.flanks, (s.point? a.1).map (fun p => p.position) = some a.2.position) ∧
      (∀ b, q.cfg.bridge = some b → s.tu.state = .aligned ∧ (if b.2 = .a then s.tu.faceA else s.tu.faceB) = some b.1)
    (q.state = .setting → proven → testProof r s =
      ((s.setRoute r fun a => { a with state := .set, settingTimer := none }).report (.routeState r .set)).hand
        (.routeChange r .set)) ∧
    (q.state ≠ .setting ∨ ¬ proven → testProof r s = s))

/-- ROUTE CAN (R68), the expiries of the setting timer (R66), the approach release timer (R69) and a request (R63),
and the full release they make (R67): a route released holds no lock, and no other route loses one. And how a route in
SETTING fails (R66): on a point of its lock sets that fails or is dropped from the throw queue, on the bridge in
FAULT, on a move it asked in its present setting (log 47, deduced) that ended with the bridge not as it requires, and
on emergency stop; each failing route is reported, tells its show and is released whole. A point that moves, and a
bridge that comes to rest ALIGNED, have the routes that lock them tested for proof (R65). A full release is spelled
whole (R67, R49): the locks go, the queued throw of each point that no route locks any more is withdrawn, the entry
leaving the queue, the point UNKNOWN with no commanded position, reported DROPPED CANCEL and handed on as withdrawn;
the marks of the trains that the route's start made become NONE (R105); the route is IDLE with its report, its change
is handed on, and the pass follows. A request dropped leaves the queue, is reported with its cause, and its origin is
told (R61, R68). The model's choices: an expiry whose timer is stopped or whose route is in another state does nothing
(log 2), and the queued throws of one full release are withdrawn in ascending order (log 56). -/
def Obligations.ReleasedRoutesHoldNothing : Prop :=
  (∀ (s : State) (r : Nat), s.Ready → exec (.routeCan r) s = .next (deliver (
    if 256 ≤ r then (workOut s s, .no .range none)
    else match s.route? r with
      | none => (workOut s s, .no .unknown none)
      | some q =>
        if s.mode = .config then (workOut s s, .no .mode none)
        else match q.state with
          | .idle => (workOut s (dropRequest r .can s), .ok (.route r .idle))
          | .setting => (workOut s (releaseToIdle r s), .ok (.route r .idle))
          | .set =>
            if 0 < q.cfg.approachRelease ∧ ∃ x ∈ q.cfg.approach, s.occupied x = true then
              (workOut s (((s.setRoute r fun q => { q with
                state := .cancelPending, approachTimer := some (s.now + 4000000 * q.cfg.approachRelease) }).report
                  (.routeState r .cancelPending)).hand (.routeChange r .cancelPending)), .ok (.route r .cancelPending))
            else (workOut s (releaseToIdle r s), .ok (.route r .idle))
          | .cancelPending => (workOut s s, .ok (.route r .cancelPending))
          | .occupied => (workOut s s, .no .state (some (.route r)))))) ∧
  (∀ (s : State) (r : Nat) (q : RouteRec) (d : Nat), s.AtRest → s.route? r = some q →
    let then_ := { s with now := max s.now d }
    (q.settingTimer = some d → q.state = .setting → exec (.settingTimeout r) s = .next (arbitrate (workOut s
      (releaseToIdle r ((then_.report (.routeFailed r .timeout)).hand (.routeFail r)))))) ∧
    (q.settingTimer = none → exec (.settingTimeout r) s = .next (arbitrate (workOut s s))) ∧
    (q.approachTimer = some d → q.state = .cancelPending →
      exec (.approachReleaseTimerExpiry r) s = .next (arbitrate (workOut s (releaseToIdle r then_)))) ∧
    (q.approachTimer = none ∨ q.state ≠ .cancelPending →
      exec (.approachReleaseTimerExpiry r) s = .next (arbitrate (workOut s s)))) ∧
  (∀ (s : State) (r : Nat), s.AtRest →
    (∀ e d, s.ix.requests.find? (fun e => e.route == r) = some e → e.expiry = some d →
      exec (.requestExpiry r) s = .next (arbitrate (workOut s
        (({ s with now := max s.now d, ix := { s.ix with requests := s.ix.requests.filter fun e => e.route != r } }.report
          (.routeDropped r .expiry)).hand (.requestDropped e.origin r .expiry))))) ∧
    ((∀ e, s.ix.requests.find? (fun e => e.route == r) = some e → e.expiry = none) →
      exec (.requestExpiry r) s = .next (arbitrate (workOut s s)))) ∧
  (∀ (s : State) (r : Nat) (q : RouteRec), s.tablesWf = true → s.route? r = some q →
    let t := releaseToIdle r s
    t.lockedSections r = [] ∧ t.lockedPoints r = [] ∧ r ∉ t.tu.locks ∧ t.route? r = some { cfg := q.cfg } ∧
    (∀ k, k ≠ r → t.lockedSections k = s.lockedSections k ∧ t.lockedPoints k = s.lockedPoints k ∧
      (k ∈ t.tu.locks ↔ k ∈ s.tu.locks) ∧ t.route? k = s.route? k) ∧
    (∀ p a, t.point? p = some a → (∀ b, s.point? p = some b → r ∈ b.locks → a.locks = [] → p ∉ t.pu.queue.map fun e => e.1))) ∧
  (∀ (s : State) (r : Nat) (cause : FailCause),
    (∀ q, s.route? r = some q → q.state = .setting →
      failRoute r cause s = releaseToIdle r ((s.report (.routeFailed r cause)).hand (.routeFail r))) ∧
    ((∀ q, s.route? r = some q → q.state ≠ .setting) → failRoute r cause s = s)) ∧
  (∀ (s : State) (p : Nat),
    (∀ e, s.point? p = none → ixPoint p e s = s) ∧
    (∀ t, s.point? p = some t →
      let tested := t.locks.foldl (fun u r => testProof r u) s
      let failed := t.locks.foldl (fun u r => failRoute r (.point p) u) s
      ixPoint p .failed s = failed ∧ ixPoint p .dropped s = failed ∧ ixPoint p .withdrawn s = s ∧
      ixPoint p .moved s = tested ∧ ixPoint p .placed s = tested.hand .reexamine)) ∧
  (∀ s : State,
    let setting := (s.ix.routes.filter fun e => e.2.state == .setting).map fun e => e.1
    (s.tu.state = .fault → ixBridge s = setting.foldl (fun u r => failRoute r .bridge u) s) ∧
    (s.tu.state = .aligned → ixBridge s = (s.tu.locks.foldl (fun u r => testProof r u) s).hand .reexamine) ∧
    (s.tu.state ≠ .fault → s.tu.state ≠ .aligned → ixBridge s = s) ∧
    routesStop s = setting.foldl (fun u r => failRoute r .stop u) s) ∧
  (∀ (s : State) (r : Nat),
    (s.route? r = none → ixMoveEnded r s = s) ∧
    (∀ q, s.route? r = some q →
      let stands := ∀ b, q.cfg.bridge = some b → s.tu.state = .aligned ∧
        (if b.2 = .a then s.tu.faceA else s.tu.faceB) = some b.1
      (q.asked = true ∨ stands → ixMoveEnded r s = s) ∧
      (q.asked = false → ¬ stands → ixMoveEnded r s = failRoute r .bridge s))) ∧
  (∀ (s : State) (r : Nat) (cause : RequestDrop), dropRequest r cause s =
    match s.ix.requests.find? fun e => e.route == r with
    | none => s
    | some e => (({ s with ix := { s.ix with requests := s.ix.requests.filter fun e => e.route != r } }.report
        (.routeDropped r cause)).hand (.requestDropped e.origin r cause))) ∧
  (∀ (s : State) (r : Nat),
    let points := (s.pu.points.filter fun p => p.2.locks.contains r).map fun p => p.1
    let sections := (s.sections.filter fun x => x.2.lock == some r).map fun x => x.1
    let withdraw := fun (u : State) (p : Nat) =>
      if (∃ a, u.point? p = some a ∧ a.locks = []) ∧ p ∈ u.pu.queue.map (fun e => e.1) then
        (((({ u with pu := { u.pu with queue := u.pu.queue.filter fun e => e.1 != p } }).setPoint p fun a => { a with
          position := .unknown, commanded := none, phase := if a.phase = Phase.pulsingQueued then .pulsing else .atRest }).report
            (.pointDropped p .cancel)).hand (.pointChange p .withdrawn)).hand .reexamine
      else u
    let unlocked := sections.foldl (fun u x => u.setSection x fun a => { a with lock := none }) s
    let left := points.foldl (fun u p => u.setPoint p fun a => { a with locks := setErase r a.locks }) unlocked
    let free := points.foldl withdraw { left with tu := { left.tu with locks := setErase r left.tu.locks } }
    let reset := free.setRoute r fun q => { cfg := q.cfg, state := q.state }
    let started := (reset.tt.trains.filter fun t => t.2.cfg.runList.head? == some r && t.2.mark == .started).map fun t => t.1
    let cleared := started.foldl (fun u n => u.setTrain n fun t => { t with mark := .none }) reset
    releaseToIdle r s = (((cleared.setRoute r fun q => { cfg := q.cfg }).report (.routeState r .idle)).hand
      (.routeChange r .idle)).hand .reexamine)

/-- An OCCUPIED route (R70 to R75): which append makes a route OCCUPIED and what it becomes; the release of a section
passed and left behind, of the final path section with the flank points (of a route whose path names no section twice,
R16 test 2), of the overlap by its timers, and of everything when the train leaves the route's track or is taken off
it; no section is released under its train, nor while it is LOST; and the moments at which the overlap timer starts,
once, and the dwell timer starts, runs on and stops (R73). The model's choices: the expiry of a stopped timer does
nothing (log 2), a route that has given up its locks starts neither timer (log 40), and an overlap timer that expires
while the train is LOST releases the overlap when the train is found again (log 17); the pass of each release is made
at once (log 16), and several sections or routes are taken in the order of log 56. A train that is taken off the
layout has each route that it occupies, in ascending order, lose it, give up its locks, the lock sets and the CLEAR
sections at once, and become IDLE if nothing is left to it (R74, R75). What is released of the final section after a
loss and a re-finding is the model's choice (log 69). And in what order the hand-overs are taken: the oldest first,
and what it hands over before the rest, until none is left (the model's choice, log 4); with which block takes an
occupancy change, a point's or the bridge's, a move's end, a re-examination, a route's change, failure or request, and
in what order they act (the model's choice, log 5). -/
def Obligations.NoSectionIsReleasedUnderItsTrain : Prop :=
  (∀ (s : State) (r : Nat) (q : RouteRec) (d : Nat), s.AtRest → s.route? r = some q →
    let released := judgeReleases none r ({ s with now := max s.now d }.setRoute r fun q =>
      { q with overlapReleased := true, overlapTimer := none, dwellTimer := none })
    (q.overlapTimer = some d → exec (.overlapTimerExpiry r) s = .next (arbitrate (workOut s released))) ∧
    (q.overlapTimer = none → exec (.overlapTimerExpiry r) s = .next (arbitrate (workOut s s))) ∧
    (q.dwellTimer = some d → exec (.dwellTimerExpiry r) s = .next (arbitrate (workOut s released))) ∧
    (q.dwellTimer = none → exec (.dwellTimerExpiry r) s = .next (arbitrate (workOut s s)))) ∧
  (∀ (s : State) (n x r : Nat) (prev : Option ListEntry) (q : RouteRec), s.tablesWf = true → s.route? r = some q →
    let u := ixAppend n x prev s
    let entered := q.cfg.path.head? = some x ∧ (q.state = .set ∨ q.state = .cancelPending ∨ q.state = .setting) ∧
      ∃ e, prev = some e ∧ s.entryLocation q.cfg = some (e.sec, e.exit)
    (¬ entered → q.state ≠ .occupied → (u.route? r).map (fun a => a.state) ≠ some .occupied) ∧
    (entered → s.active n = true → s.inList n x = true → s.lockOf x = some r →
      (u.route? r).map (fun a => (a.state, a.train, a.settingTimer, a.approachTimer, a.passed.contains x)) =
        some (.occupied, some n, none, none, true) ∧
      u.Told (.routeOccupied r n) ∧ Notice.routeChange r .occupied ∈ u.agenda) ∧
    (q.state = .occupied → q.train = some n → x ∈ q.cfg.path ++ q.cfg.overlap → s.active n = true →
      s.inList n x = true → s.lockOf x = some r → (u.route? r).map (fun a => a.passed.contains x) = some true)) ∧
  (∀ (s : State) (r n : Nat) (removed : Option Nat) (q : RouteRec), s.tablesWf = true → s.route? r = some q →
    q.state = .occupied → q.train = some n →
    let u := judgeReleases removed r s
    let joints := q.cfg.path.zip q.cfg.path.tail
    let leftWith := fun (x : Nat) => s.lockOf x = some r → ∀ c, s.section? x = some c →
      (c.cfg.kind = .bridge → r ∉ u.tu.locks) ∧
      (∀ p, c.cfg.kind = .point → c.cfg.point = some p → ((∃ a ∈ q.cfg.points, a.1 = p) ∨ q.cfg.path.getLast? = some x) →
        ∀ t, u.point? p = some t → r ∉ t.locks)
    (s.active n = false → u = s) ∧
    (s.active n = true → (∃ y ∈ q.cfg.path ++ q.cfg.overlap, s.inList n y = true) →
      (∀ e ∈ joints, q.passed.contains e.1 = true → s.inList n e.1 = false → s.inList n e.2 = true →
        u.lockOf e.1 ≠ some r ∧ leftWith e.1) ∧
      (∀ e ∈ joints, q.cfg.path.Nodup → e.1 ∉ q.cfg.overlap → (q.passed.contains e.1 = false ∨ s.inList n e.2 = false) →
        s.lockOf e.1 = some r → u.lockOf e.1 = some r) ∧
      (∀ x, q.cfg.path.getLast? = some x → q.passed.contains x = true → s.inList n x = false →
        u.lockOf x ≠ some r ∧ leftWith x ∧
        (q.cfg.path.Nodup → s.lockOf x = some r → ∀ f ∈ q.cfg.flanks, ∀ t, u.point? f.1 = some t → r ∉ t.locks)) ∧
      (∀ x ∈ q.cfg.overlap, q.overlapReleased = true → s.inList n x = false → u.lockOf x ≠ some r ∧ leftWith x) ∧
      (∀ x ∈ q.cfg.path ++ q.cfg.overlap, s.inList n x = true → s.lockOf x = some r → u.lockOf x = some r)) ∧
    (s.active n = true → (∀ y ∈ q.cfg.path ++ q.cfg.overlap, s.inList n y = false) →
      (∀ p ∈ u.pu.points, r ∉ p.2.locks) ∧ r ∉ u.tu.locks ∧
      (∀ x ∈ s.lockedSections r, s.occupied x = false → u.lockOf x ≠ some r) ∧
      (∀ x ∈ s.lockedSections r, s.occupied x = true → removed = none → u.lockOf x = some r) ∧
      (∀ x, q.cfg.path.getLast? = some x → q.passed.contains x = true → removed = some x → u.lockOf x ≠ some r) ∧
      (removed = none → if ∃ x ∈ s.lockedSections r, s.occupied x = true
        then (u.route? r).map (fun a => (a.state, a.leaving, a.overlapTimer, a.dwellTimer)) =
          some (.occupied, true, none, none)
        else u.route? r = some { cfg := q.cfg }))) ∧
  (∀ (s : State) (x r : Nat) (q : RouteRec), s.lockOf x = some r → s.route? r = some q → q.state = .occupied →
    let lost := (q.train.bind s.train?).map (fun t => t.state) = some .lost
    (q.leaving = false ∨ lost → ixClear x s = s.hand .reexamine) ∧
    (q.leaving = true → ¬ lost → (ixClear x s).lockOf x ≠ some r)) ∧
  (∀ (s : State) (n r : Nat) (q : RouteRec), s.tablesWf = true → s.routesOf n = [r] → s.route? r = some q →
    let u := ixTrainGone n s
    (∀ x ∈ s.lockedSections r, if s.occupied x = true then u.lockOf x = some r else u.lockOf x ≠ some r) ∧
    (∀ p ∈ u.pu.points, r ∉ p.2.locks) ∧ r ∉ u.tu.locks ∧
    (∀ a, u.route? r = some a → a.train = none)) ∧
  (∀ (s : State) (r x : Nat) (q : RouteRec), s.route? r = some q →
    let released := fun (u : State) => judgeReleases none r (u.setRoute r fun q =>
      { q with overlapReleased := true, overlapTimer := none, dwellTimer := none })
    let starts := q.cfg.path.getLast? = some x ∧ q.overlapStarted = false ∧ q.overlapReleased = false ∧ q.leaving = false
    let once := s.setRoute r fun q => { q with overlapStarted := true }
    (¬ starts → startOverlap r x s = s) ∧
    (starts → startOverlap r x s = if q.cfg.overlapRelease = 0 then released once
      else once.setRoute r fun q => { q with overlapTimer := some (s.now + 4000000 * q.cfg.overlapRelease) }) ∧
    (q.state ≠ .occupied ∨ q.train = none → judgeDwell r s = s) ∧
    (∀ n, q.state = .occupied → q.train = some n →
      let stands := q.overlapReleased = false ∧ q.leaving = false ∧ s.currentOf n = 0 ∧
        ∃ e, (s.listOf n).getLast? = some e ∧ q.cfg.path.getLast? = some e.sec
      judgeDwell r s = if stands then
          (if q.dwellTimer = none then s.setRoute r fun q => { q with dwellTimer := some (s.now + 8000000) } else s)
        else s.setRoute r fun q => { q with dwellTimer := none })) ∧
  (∀ (s : State) (n x r : Nat) (prev : Option ListEntry) (removed : Option Nat),
    let occupying := fun (u : State) =>
      (u.ix.routes.filter fun e => e.2.state == .occupied && e.2.train == some n).map fun e => e.1
    let entered := (s.routesWith (s.occupies x prev)).foldl (fun u r => occupyRoute n r u) s
    let passed := s.setRoute r fun q => if x ∈ q.cfg.path ++ q.cfg.overlap then { q with passed := setInsert x q.passed } else q
    ixAppend n x prev s = (occupying entered).foldl (fun u r => appendToRoute x r u) entered ∧
    appendToRoute x r s = judgeReleases none r (judgeDwell r (startOverlap r x passed)) ∧
    ixListChange n removed s = (occupying s).foldl (fun u r => judgeReleases removed r (judgeDwell r u)) s ∧
    ixLoss n s = (occupying s).foldl (fun u r => judgeDwell r u) s ∧
    handle (.stepChange n) s =
      vuStepChange n ((occupying s).foldl (fun u r => judgeDwell r u) (ttStepChange n s))) ∧
  (∀ s : State,
    settle s = settleFrom Config.cascadeFuel s ∧ settleFrom 0 s = s ∧ (∀ k, s.agenda = [] → settleFrom k s = s) ∧
    (∀ k n rest, s.agenda = n :: rest →
      let t := handle n { s with agenda := [] }
      settleFrom (k + 1) s = settleFrom k { t with agenda := t.agenda ++ rest })) ∧
  (∀ (s : State) (x p r : Nat) (e : PointEvent) (st : RouteState) (o : Origin) (out : MoveOutcome) (cause : RequestDrop),
    handle (.occupancy x true) s = (refreshSignals s).hand (.trackOccupied x s.aspects) ∧
    handle (.occupancy x false) s = (ixClear x (refreshSignals s)).hand (.trackClear x) ∧
    handle (.pointChange p e) s = ixPoint p e s ∧
    handle .bridgeChange s = ixBridge s ∧
    handle (.moveEnded (.route r) out) s = ixMoveEnded r s ∧
    ((∀ a, o ≠ .route a) → (∀ n, o ≠ .show n) → handle (.moveEnded o out) s = s) ∧
    handle .reexamine s = reexamine s ∧
    handle (.routeChange r st) s = vuRouteChange r st (ttRouteChange r st s) ∧
    handle (.routeFail r) s = vuRouteFail r s ∧
    handle (.requestStarted o r) s = ttRequestStarted r s ∧
    ((∀ n, o ≠ .show n) → handle (.requestDropped o r cause) s = ttRequestDropped r s) ∧
    (∀ n, handle (.requestDropped (.show n) r cause) s = vuRequestDropped n r cause (ttRequestDropped r s))) ∧
  (∀ (s : State) (n r : Nat) (c : RouteCfg),
    let given := s.setRoute r fun q => { q with leaving := true, overlapTimer := none, dwellTimer := none }
    let points := (s.pu.points.filter fun p => p.2.locks.contains r).map fun p => p.1
    let left := points.foldl (fun u p => u.setPoint p fun a => { a with locks := setErase r a.locks }) given
    let out := { left with tu := { left.tu with locks := setErase r left.tu.locks } }
    let clear := (s.sections.filter fun x => x.2.lock == some r && !s.occupied x.1).map fun x => x.1
    giveUp r c s = clear.foldl (fun u x => freeSection r c x u)
      (if points ≠ [] ∨ r ∈ s.tu.locks then reexamine out else out) ∧
    (∀ x, freeSection r c x s = if s.lockOf x = some r then reexamine (releaseSection r c x s) else s) ∧
    (let free := ∃ q, s.route? r = some q ∧ q.state = .occupied ∧ s.lockedSections r = [] ∧ s.lockedPoints r = [] ∧
       r ∉ s.tu.locks
     (free → idleIfFree r s = idleRoute r s) ∧ (¬ free → idleIfFree r s = s)) ∧
    ixTrainGone n s = ((s.ix.routes.filter fun e => e.2.state == .occupied && e.2.train == some n).map fun e => e.1).foldl
      (fun u r => match u.route? r with
        | some q => idleIfFree r (giveUp r q.cfg (u.setRoute r fun q => { q with train := none }))
        | none => u) s)

/-! ## Signals and aspects (chapter 5) -/

/-- The aspect that the model gives every signal is the one R80 and R81 ask for, signal by signal. -/
def Obligations.AspectsMeetR80AndR81 : Prop :=
  (∀ (s : State) (g : Nat), s.MeetsRules s.aspectNow g) ∧
  ∀ (s : State) (g : Nat), s.tablesWf = true →
    (s.ledRoute g = none ↔ ∀ r q, s.route? r = some q → q.cfg.entry = some g → q.state = .idle) ∧
    (∀ r, s.ledRoute g = some r ↔ ∃ q, s.route? r = some q ∧ q.cfg.entry = some g ∧ q.state ≠ .idle ∧
      ∀ k a, s.route? k = some a → k < r → a.cfg.entry = some g → a.state = .idle)

/-- There is one assignment of aspects that R80 and R81 allow, rings of routes included (section 5.3). -/
def Obligations.TheAssignmentOfAspectsIsTheOnlyOne : Prop :=
  ∀ (s : State) (a : Nat → Aspect), (∀ g, s.MeetsRules a g) → ∀ g, a g = s.aspectNow g

/-- After every arrival each signal stands at its aspect, and each stop cut by R87: ON while the aspect is STOP unless
an ACTIVE train's list holds the signal's location as other than its lead, OFF for a signal of no stop section. An
arrival's own reports and all that it hands on come first; then a SIGNAL report goes out for each signal whose aspect
is not the one before the arrival and for no other, in ascending order (R83), and a fall to STOP while emergency stop
is inactive sets the signal's fallen mark (R115, R123). -/
def Obligations.EveryArrivalSettlesAspectsAndCuts : Prop :=
  (∀ s t : State, ∀ x ∈ (workOut s t).ix.signals,
     x.2.aspect = (workOut s t).aspectNow x.1 ∧
     (x.2.stopCut = true ↔ x.2.cfg.stopSection ≠ none ∧ x.2.aspect = .stop ∧
       ¬ ∃ y ∈ (workOut s t).tt.trains, y.2.state = .active ∧
         ∃ e ∈ y.2.list.dropLast, x.2.cfg.location = some (e.sec, e.exit))) ∧
  (∀ s t : State,
    let u := settle t
    let before := fun (g : Nat) => ((s.signal? g).map fun r => r.aspect).getD .stop
    let stands : State := { u with ix := { u.ix with signals := u.ix.signals.map fun e =>
      (e.1, { e.2 with aspect := u.aspectNow e.1, stopCut := u.cutOf e.2.cfg (u.aspectNow e.1) }) } }
    workOut s t = (stands.ix.signals.filter fun e => e.2.aspect ≠ before e.1).foldl (fun v e =>
      let told := v.report (.signal e.1 e.2.aspect)
      if e.2.aspect = .stop ∧ v.ss.stop = false then
        { told with dg := { told.dg with fallen := setInsert e.1 told.dg.fallen } } else told) stands)

/-- The lamps of every head at every aspect (R86), and the cap of every aspect (R85). -/
def Obligations.LampsAndCapsOfAspects : Prop :=
  (∀ (c : SignalCfg) (a : Aspect) (l : Lamp), lampValue c a l =
    match a, c.head with
    | .stop, _ => if l = .red then .on else .off
    | .shunt, _ => if c.shuntLamp = true then (if l = .red ∨ l = .shunt then .on else .off)
        else if l = .red then .flash else .off
    | .caution, .two => if l = .green then .on else .off
    | .caution, _ => if l = .yellow then .on else .off
    | .prelim, .four => if l = .yellow ∨ l = .yellow2 then .on else .off
    | .prelim, _ => if l = .green then .on else .off
    | .clear, _ => if l = .green then .on else .off) ∧
  (∀ s : State, s.capOf .stop = some 0 ∧ s.capOf .shunt = some s.ix.shuntCap ∧ s.capOf .caution = some s.ix.cautionCap ∧
    s.capOf .prelim = some s.ix.prelimCap ∧ s.capOf .clear = none)

/-! ## Trains (chapter 6) -/

/-- TRAIN n SPEED and TRAIN n TAKE (R102) and TRAIN n RELEASE (R91): the first condition of each table decides, and a
take returns a show's train to the host with demand 0. -/
def Obligations.SpeedTakeAndRelease : Prop :=
  (∀ (s : State) (n v : Nat), s.Ready →
    let refused := fun (t : Option TrainRec) => match t with
      | none => some Code.unknown
      | some t => if t.state = .unused then some .unknown else if s.mode = .config then some .mode else none
    exec (.trainSpeed n v) s = .next (deliver (
      if 32 ≤ n ∨ 127 < v then (workOut s s, .no .range none)
      else match refused (s.train? n), s.train? n with
        | some c, _ => (workOut s s, .no c none)
        | none, none => (workOut s s, .no .unknown none)
        | none, some t =>
          if t.state ≠ .active then (workOut s s, .no .state (some (.train n)))
          else if t.driver ≠ .link then (workOut s s, .no .owned none)
          else if s.ss.stop = true ∧ v ≠ 0 then (workOut s s, .no .stopped none)
          else (workOut s (s.setTrain n fun t => { t with demand := v }), .ok (.trainSpeed n v)))) ∧
    exec (.trainTake n) s = .next (deliver (
      if 32 ≤ n then (workOut s s, .no .range none)
      else match refused (s.train? n), s.train? n with
        | some c, _ => (workOut s s, .no c none)
        | none, none => (workOut s s, .no .unknown none)
        | none, some t => match t.driver with
          | .link => (workOut s s, .ok (.trainLink n))
          | .show m => (workOut s (abortShow m .take s), .ok (.trainLink n)))) ∧
    exec (.trainRelease n) s = .next (deliver (
      if 32 ≤ n then (workOut s s, .no .range none)
      else match refused (s.train? n), s.train? n with
        | some c, _ => (workOut s s, .no c none)
        | none, none => (workOut s s, .no .unknown none)
        | none, some t =>
          if t.state ≠ .active then (workOut s s, .no .state none)
          else
            let u := s.setTrain n fun t => { t with passedStop := false }
            let lifted := (if t.passedStop = true then u.hand (.holdsChange n) else u).report (.trainReleased n)
            (workOut s (match t.ambiguity with
              | none => lifted
              | some x => resolveAmbiguity n x lifted), .ok (.trainReleased n))))) ∧
  (∀ (s : State) (n m : Nat) (t : TrainRec) (w : ShowRec), s.train? n = some t → t.driver = .show m →
    s.show? m = some w → w.state = .running → w.cfg.train = some n →
    ((abortShow m .take s).train? n).map (fun t => (t.driver, t.demand, t.showWait)) = some (.link, 0, false))

/-- TRAIN n PLACE (R93) and TRAIN n REMOVE (R94): the first condition of each table decides; a train placed is ACTIVE
with a list of one entry, its ends by R93, and a train removed is UNPLACED with every live field initial but the two
that the boards read of it, which are kept (the model's choice, log 25). A placing changes no other train but its
ambiguity, with ON-TURN where the routes of the train placed give up locks that let a bridge move start, and a mark
STARTED, which becomes NONE where the route at the head of its train's run list has become IDLE (R105). The state
after each is spelled whole: the routes of a train removed give up their locks (R75, R94), its requests are withdrawn,
and the reports and hand-overs follow in order, the placement opportunity of a train placed among them, after the
visitor unit has taken the placing (the model's choice, log 73); a change of any part of a hold set is handed on
(R91). A train placed while the bridge turns is carried (R131). -/
def Obligations.TrainsArePlacedAndRemoved : Prop :=
  (∀ (s : State) (n x : Nat) (e : Option EndName), s.Ready → s.tablesWf = true →
     let no := fun (c : Code) (o : Option Obj) => Host.Outcome.next (deliver (workOut s s, Reply.no c o))
     (32 ≤ n ∨ 128 ≤ x → exec (.trainPlace n x e) s = no .range none) ∧
     (∀ r, n < 32 → x < 128 → s.section? x = some r → (∀ k ∈ r.cfg.kind.ends, e ≠ some k) →
       exec (.trainPlace n x e) s = no .range none) ∧
     (n < 32 → x < 128 → s.section? x = none → exec (.trainPlace n x e) s = no .unknown none) ∧
     (∀ r k, n < 32 → x < 128 → s.section? x = some r → e = some k → k ∈ r.cfg.kind.ends →
       ((∀ t, s.train? n = some t → t.state = .unused) → exec (.trainPlace n x e) s = no .unknown none) ∧
       (∀ t, s.train? n = some t → t.state ≠ .unused →
         let f : Option EndName := match r.cfg.kind, k with
           | .point, .toe => match r.cfg.point.bind s.point? with
             | some p => if p.position = .normal then some .normal else if p.position = .reverse then some .reverse else none
             | none => none
           | .point, _ => some .toe
           | _, .a => some .b
           | _, _ => some .a
         (s.mode = .config → exec (.trainPlace n x e) s = no .mode none) ∧
         (s.mode = .run → t.state = .active → exec (.trainPlace n x e) s = no .state (some (.train n))) ∧
         (s.mode = .run → t.state ≠ .active → t.driver ≠ .link → exec (.trainPlace n x e) s = no .owned none) ∧
         (s.mode = .run → t.state ≠ .active → t.driver = .link →
           (s.fc.condition ≠ .healthy → exec (.trainPlace n x e) s = no .state (some .chain)) ∧
           (s.fc.condition = .healthy → s.holder x ≠ none →
             exec (.trainPlace n x e) s = no .occupied (some (.sec x))) ∧
           (s.fc.condition = .healthy → s.holder x = none → f = none →
             exec (.trainPlace n x e) s = no .state (r.cfg.point.map .point)) ∧
           (∀ g, s.fc.condition = .healthy → s.holder x = none → f = some g →
             let placed := { t with
               state := .active, list := [{ sec := x, exit := k, entry := g }], current := 0, demand := 0, cap := none
               remembered := none, ambiguity := none
               lostTimer := if s.occupied x = false ∧ t.lostTimer = none then some (s.now + 4000 * s.tt.lostTime)
                 else t.lostTimer }
             let other := fun (a : TrainRec) => if a.ambiguity = some x then { a with ambiguity := none } else a
             ∃ u, exec (.trainPlace n x e) s = .next (deliver (workOut s u, .ok (.trainActive n))) ∧
               (let stands := changeHolds n (fun a => { a with
                  state := .active, list := [{ sec := x, exit := k, entry := g }], current := 0, demand := 0, cap := none
                  remembered := none, ambiguity := none }) s
                let settled := ((stands.tt.trains.filter fun a => a.2.ambiguity == some x).map fun a => a.1).foldl
                  (fun v m => changeHolds m (fun a => { a with ambiguity := none }) v) stands
                let judged := judgeLost n (ixAppend n x none (settled.report (.trainActive n x)))
                let carried := if judged.tu.ten = true ∧ judged.bridgeSection = some x then
                    { judged.setTrain n (fun a => { a with onTurn := true }) with
                      tu := { judged.tu with carried := some n } }.hand (.holdsChange n)
                  else judged
                u = ((carried.hand (.trainChange n .active)).hand (.listChange n)).hand (.placement n)) ∧
               (∃ b, u.train? n = some b ∧ u.KeepsTrain placed b) ∧
               (∀ m, m ≠ n → ∀ a, s.train? m = some a → ∃ b, u.train? m = some b ∧ u.KeepsTrain (other a) b) ∧
               (∀ m, s.train? m = none → u.train? m = none) ∧
               (s.routesOf n = [] →
                 u.train? n = some { placed with onTurn := t.onTurn || (s.tu.ten && s.bridgeSection == some x) } ∧
                 (∀ m, m ≠ n → u.train? m = (s.train? m).map other)))))) ∧
     (32 ≤ n → exec (.trainRemove n) s = no .range none) ∧
     (n < 32 → (∀ t, s.train? n = some t → t.state = .unused) → exec (.trainRemove n) s = no .unknown none) ∧
     (∀ t, n < 32 → s.train? n = some t → t.state ≠ .unused →
       (s.mode = .config → exec (.trainRemove n) s = no .mode none) ∧
       (s.mode = .run → (t.state = .unplaced ∨ t.state = .active ∧ t.current ≠ 0) →
         exec (.trainRemove n) s = no .state (some (.train n))) ∧
       (s.mode = .run → t.state ≠ .unplaced → (t.state = .active → t.current = 0) →
         ∃ u, exec (.trainRemove n) s = .next (deliver (workOut s u, .ok (.trainUnplaced n))) ∧
           u.train? n = some { cfg := t.cfg, state := .unplaced, departure := t.departure, stepRead := t.stepRead } ∧
           (∀ q ∈ u.ix.requests, q.origin ≠ .train n) ∧ u.tu.carried ≠ some n ∧ n ∉ u.dg.replacement ∧
           (let off := if s.tu.carried = some n then
                { s.setTrain n (fun a => { a with onTurn := false }) with
                  tu := { s.tu with carried := none } }.hand (.holdsChange n)
              else s
            let gone := ixTrainGone n (changeHolds n (fun a =>
              { cfg := a.cfg, state := .unplaced, departure := a.departure, stepRead := a.stepRead }) off)
            let dropped := { gone with dg := { gone.dg with replacement := setErase n gone.dg.replacement } }
            u = (((withdrawRequests (.train n) dropped).report (.trainUnplaced n)).hand (.trainChange n .removed)).hand
              (.listChange n))))) ∧
  (∀ (s : State) (n : Nat) (f : TrainRec → TrainRec),
    let holds := fun (t : TrainRec) =>
      [t.passedStop, t.channelConflict || t.ambiguity.isSome, t.onTurn, t.reversing, t.showWait]
    (s.train? n = none → changeHolds n f s = s) ∧
    (∀ t, s.train? n = some t → changeHolds n f s =
      if holds (f t) = holds t then s.setTrain n f else (s.setTrain n f).hand (.holdsChange n))) ∧
  (∀ (s : State) (o : Origin), withdrawRequests o s =
    (s.ix.requests.filter fun q => q.origin == o).foldl (fun u q => dropRequest q.route .withdrawn u) s)

/-- TRAIN n REVERSE (R103) and TRAIN n RUNLIST (R104): the first condition of each table decides; a reversal completes
at once at current step 0, turning the list and every entry of it round. A reversal that completes has the releases
judged on the turned list, then the report REVERSED and the change of list handed on, then the trailing removal, at
once while HEALTHY and else at the resumption, and last a placement opportunity (R103). Where the releases make the
route at the head of the run list IDLE, a mark STARTED becomes NONE (R105), and where they let a bridge move start, a
train may be carried by it (R131). The run lists (R105): what a placement opportunity stores and the mark each outcome
gives, what the entry's fate and the route's changes make of the marks (every train whose mark is QUEUED for the route
is told, log 26), and how a list goes on as its head is entered. -/
def Obligations.TrainsReverseAndTakeRunLists : Prop :=
  (∀ (s : State) (n : Nat), s.Ready → exec (.trainReverse n) s = .next (deliver (
    if 32 ≤ n then (workOut s s, .no .range none)
    else match s.train? n with
      | none => (workOut s s, .no .unknown none)
      | some t =>
        if t.state = .unused then (workOut s s, .no .unknown none)
        else if s.mode = .config then (workOut s s, .no .mode none)
        else if t.state ≠ .active then (workOut s s, .no .state (some (.train n)))
        else if t.driver ≠ .link then (workOut s s, .no .owned none)
        else if t.reversing = true then (workOut s s, .ok .bare)
        else
          let u := (s.setTrain n fun t => { t with reversing := true }).hand (.holdsChange n)
          (workOut s (if t.current = 0 then completeReversal n u else u), .ok .bare)))) ∧
  (∀ (s : State) (n : Nat) (t : TrainRec), s.train? n = some t →
    let turned := (t.list.map fun e => ({ sec := e.sec, exit := e.entry, entry := e.exit } : ListEntry)).reverse
    let done := { t with list := turned, cap := none, reversing := false, trailDue := true }
    (s.fc.condition ≠ .healthy → s.routesOf n = [] → (completeReversal n s).train? n = some done) ∧
    (s.fc.condition ≠ .healthy → s.tablesWf = true → ∃ b, (completeReversal n s).train? n = some b ∧
      (completeReversal n s).KeepsTrain done b) ∧
    (s.fc.condition = .healthy → ∃ u k, (completeReversal n s).train? n = some u ∧ u.list = turned.drop k ∧
      (∀ e ∈ turned.take k, s.occupied e.sec = false) ∧ (t.list ≠ [] → u.list ≠ []) ∧ u.cap = none ∧ u.reversing = false)) ∧
  (∀ (s : State) (n : Nat) (mode : RunMode) (routes : List Nat), s.Ready →
    exec (.trainRunlist n mode routes) s = .next (deliver (
      if 32 ≤ n ∨ ∃ r ∈ routes, 256 ≤ r then (workOut s s, .no .range none)
      else if 8 < routes.length then (workOut s s, .no .limit none)
      else match s.train? n with
        | none => (workOut s s, .no .unknown none)
        | some t =>
          if t.driver ≠ .link then (workOut s s, .no .owned none)
          else
            let u := (withdrawRequests (.train n) s).setTrain n fun t => { t with
              mark := .none, cfg := { t.cfg with runList := routes, runMode := mode } }
            (workOut s (if s.mode = .run then u.hand (.placement n) else u), .ok (.trainRunlist n))))) ∧
  (∀ (s : State) (o : Origin), ∀ q ∈ (withdrawRequests o s).ix.requests, q.origin ≠ o) ∧
  (∀ (s : State) (n h : Nat) (t : TrainRec) (q : RouteRec), s.train? n = some t → t.cfg.runList.head? = some h →
    s.route? h = some q → h < 256 → s.mode = .run →
    let marked := fun (m : RequestMark) (u : State) => u.setTrain n fun t => { t with mark := m }
    let stores := t.state = .active ∧ t.driver = .link ∧ t.passedStop = false ∧ t.channelConflict = false ∧
      t.ambiguity = none ∧ t.onTurn = false ∧ t.reversing = false ∧ t.showWait = false ∧
      (t.mark = .none ∨ t.mark = .deferred) ∧
      ∃ e, t.list.getLast? = some e ∧ (e.sec ∈ q.cfg.approach ∨ (s.entryLocation q.cfg).map (fun l => l.1) = some e.sec)
    (¬ stores → placement n s = s) ∧
    (stores → placement n s =
      if q.state ≠ .idle then marked .deferred s
      else if ∃ e ∈ s.ix.requests, e.route = h then marked .queued s
      else if s.settable h q = none then marked .started (enterSetting h q.cfg s)
      else if 48 ≤ s.ix.requests.length then marked .none s
      else marked .queued ({ s with ix := { s.ix with requests := s.ix.requests ++ [Request.mk h (.train n) none] } }.report
        (.routeQueued h (.train n))))) ∧
  (∀ (s : State) (r : Nat), s.tablesWf = true →
    let marks := fun (old new : RequestMark) (u : State) => ∀ m, u.train? m = (s.train? m).map fun a =>
      if a.cfg.runList.head? = some r ∧ a.mark = old then { a with mark := new } else a
    marks .queued .started (ttRequestStarted r s) ∧ marks .queued .none (ttRequestDropped r s) ∧
    marks .started .none (idleRoute r s) ∧
    (∀ m, Notice.placement m ∈ (ttRouteChange r .idle s).agenda ↔ Notice.placement m ∈ s.agenda ∨
      ∃ t, s.train? m = some t ∧ t.cfg.runList.head? = some r ∧ t.mark = .deferred) ∧
    (∀ (n : Nat) (q : RouteRec) (t : TrainRec), s.route? r = some q → q.train = some n → s.train? n = some t →
      let u := ttRouteChange r .occupied s
      (∀ rest, t.cfg.runList = r :: rest → Notice.placement n ∈ u.agenda ∧ u.train? n = some { t with
        mark := .none, cfg := { t.cfg with runList := if t.cfg.runMode = .loop then rest ++ [r] else rest } }) ∧
      (t.cfg.runList.head? ≠ some r → u.train? n = some t) ∧
      (∀ m, m ≠ n → u.train? m = (s.train? m).map fun a =>
        if a.cfg.runList.head? = some r ∧ a.mark = .started then { a with mark := .none } else a))) ∧
  (∀ (s : State) (n : Nat),
    let turned := changeHolds n (fun t => { t with
      list := (t.list.map fun e => ({ sec := e.sec, exit := e.entry, entry := e.exit } : ListEntry)).reverse
      cap := none, reversing := false }) s
    let told := ((ixListChange n none turned).report (.trainReversed n)).hand (.listChange n)
    completeReversal n s = (if told.fc.condition = .healthy then trailing n told
      else told.setTrain n fun t => { t with trailDue := true }).hand (.placement n))

/-- The tracker's movements (R95 to R99): a section of a list that comes back, the claim of a section by the one train
that reaches it or the one that moves, with the signal passed, a full list's trailing entry dropped first and the new
exit taken as the points then stand, the ambiguity of several, the re-finding of the one LOST train beside it, the
stray, the removal of trailing sections and TRAIN RELEASE's choice; a claim changes no other train but its ambiguity,
with ON-TURN and a mark STARTED where what it releases starts a bridge move (R131) or makes a run list's head IDLE
(R105). The expiry of an ACTIVE train's lost timer makes it LOST (R100): its lead is remembered, its list emptied, no
section it held unlocked, and the whole state is spelled, with the report and what is handed on. Then which block
takes what of the tracker's hand-overs; the chain condition's change, at which the queue is re-examined and a pulse
considered when it is HEALTHY, and every lost timer stops when it is not; the trimming of a list; the lost timer's
start, for a train alone on a CLEAR section while HEALTHY; and the resumption (R101): trailing removals that are due,
lost timers, then every OCCUPIED section in no list, ascending. The model's choices: a pass at STOP keeps the
remembered cap (log 74); the expiry of a stopped timer does nothing (log 2); a pass revealed by TRAIN RELEASE is
judged by the aspects at the command (log 41), its claim made whatever the condition (log 49); hand-overs are taken
once the action that made them is done (log 4), in log 5's order where two blocks take one; the sweep's sections are
fixed at its start (log 61), its claims judged by the aspects at its start (log 41), the trains before it taken in
ascending order (log 56). Deduced: the OCCUPIED events of step 2 of a chain reset are taken (log 15), and the
resumption's order (log 27). -/
def Obligations.ALostTrainKeepsItsLocks : Prop :=
  (∀ (s : State) (n : Nat), s.AtRest →
    (∀ t d e, s.train? n = some t → t.state = .active → t.lostTimer = some d → t.list.getLast? = some e →
      ∃ u, exec (.lostTimerExpiry n) s = .next (arbitrate (workOut s u)) ∧
        u.now = max s.now d ∧
        u.train? n = some { t with
          state := .lost, remembered := some e, list := [], lostTimer := none, current := 0, demand := 0, cap := none
          reversing := false, ambiguity := none, channelConflict := false, mark := .none, trailDue := false
          onTurn := t.onTurn && s.tu.carried != some n } ∧
        (∀ x, u.lockOf x = s.lockOf x) ∧ (∀ q ∈ u.ix.requests, q.origin ≠ .train n) ∧ n ∉ u.dg.replacement ∧
        Notice.trainChange n .lost ∈ u.agenda ∧
        (let judged := ixLoss n (changeHolds n (fun a => { a with
           state := .lost, remembered := some e, list := [], lostTimer := none, current := 0, demand := 0, cap := none
           reversing := false, ambiguity := none, channelConflict := false, mark := .none, trailDue := false })
           { s with now := max s.now d })
         let told := ((withdrawRequests (.train n) { judged with dg := { judged.dg with
           replacement := setErase n judged.dg.replacement } }).report (.trainLost n e.sec)).hand (.trainChange n .lost)
         u = (if told.tu.carried = some n then
             { told.setTrain n (fun a => { a with onTurn := false }) with
               tu := { told.tu with carried := none } }.hand (.holdsChange n)
           else told).hand (.listChange n))) ∧
    ((∀ t, s.train? n = some t → t.state ≠ .active ∨ t.lostTimer = none ∨ t.list = []) →
      exec (.lostTimerExpiry n) s = .next (arbitrate (workOut s s)))) ∧
  (∀ (s : State) (x : Nat) (before : List (Nat × Aspect)), s.tablesWf = true →
    let u := trackOccupied x before s
    let follows := s.fc.condition = .healthy
    let cleared := fun (a : TrainRec) => if a.ambiguity = some x then { a with ambiguity := none } else a
    let entry := fun (f : EndName) => ({ sec := x, exit := (s.far x f).getD f, entry := f } : ListEntry)
    (¬ follows → u = s) ∧
    (∀ n, follows → s.holder x = some n → u = s.setTrain n fun t =>
      if (t.list.getLast?).map (fun e => e.sec) = some x then { t with lostTimer := none } else t) ∧
    (∀ n t l f, follows → s.holder x = none → s.train? n = some t → t.list.getLast? = some l → s.reaches t x = some f →
      (∀ y ∈ s.tt.trains, y.1 ≠ n → s.reaches y.2 x ≠ none → t.current ≠ 0 ∧ y.2.current = 0) →
      let at_ := (s.signalAt l.sec l.exit).map (aspectIn before)
      let dropped := if 6 ≤ t.list.length
        then ixListChange n ((t.list.head?).map fun e => e.sec) (s.setTrain n fun a => { a with list := a.list.drop 1 })
        else s
      (u.train? n).map (fun a => (a.state, a.list, a.lostTimer, a.ambiguity, (a.passedStop, a.cap), a.current, a.demand)) =
        some (.active, (if 6 ≤ t.list.length then t.list.drop 1 else t.list) ++
            [{ sec := x, exit := (dropped.far x f).getD f, entry := f }], none, (cleared t).ambiguity,
          s.passing at_ t.passedStop t.cap, t.current, t.demand) ∧
      (∀ m, m ≠ n → ∀ a, s.train? m = some a → ∃ b, u.train? m = some b ∧ u.KeepsTrain (cleared a) b) ∧
      (∀ m, s.train? m = none → u.train? m = none) ∧
      u.Told (.trainAt n x) ∧ Notice.placement n ∈ u.agenda ∧
      (∀ g, s.signalAt l.sec l.exit = some g → aspectIn before g = .stop →
        u.Told (.trainPassedStop n g) ∧ Notice.passedStop n ∈ u.agenda) ∧
      (∀ e rest, t.list = e :: rest → 6 ≤ t.list.length → u.Told (.trainLong n e.sec))) ∧
    (follows → s.holder x = none → (∃ y ∈ s.tt.trains, s.reaches y.2 x ≠ none) →
      (∀ y ∈ s.tt.trains, s.reaches y.2 x ≠ none → ∃ z ∈ s.tt.trains, z.1 ≠ y.1 ∧ s.reaches z.2 x ≠ none ∧
        (y.2.current = 0 ∨ z.2.current ≠ 0)) →
      (∀ m, u.train? m = (s.train? m).map fun a => if s.reaches a x ≠ none then { a with ambiguity := some x } else a) ∧
      u.Told (.trainAmbiguous x ((s.tt.trains.filter fun y => s.reaches y.2 x ≠ none).map fun y => y.1))) ∧
    (follows → s.holder x = none → (∀ y ∈ s.tt.trains, s.reaches y.2 x = none) →
      (∀ n t m, s.train? n = some t → t.remembered = some m →
        (∀ y ∈ s.tt.trains, s.beside x y.2 = true ↔ y.1 = n) →
        let found := fun (e : ListEntry) (at_ : Option Aspect) =>
          (u.train? n).map (fun a => (a.state, a.list, a.remembered, (a.passedStop, a.cap), a.current, a.demand)) =
            some (.active, [e], none, s.passing at_ t.passedStop none, t.current, t.demand) ∧
          u.Told (.trainFound n x) ∧ Notice.placement n ∈ u.agenda ∧
          (at_ = some .stop → Notice.passedStop n ∈ u.agenda)
        (m.sec = x → found m none) ∧
        (m.sec ≠ x → ∀ r, s.section? m.sec = some r → ∀ first e rest, r.cfg.kind.ends = first ++ e :: rest →
          (∀ d ∈ first, (s.across m.sec d).map (fun a => a.1) ≠ some x) →
          ∀ a, s.across m.sec e = some a → a.1 = x → found (entry a.2) ((s.signalAt m.sec e).map s.aspectNow))) ∧
      (((s.tt.trains.filter fun y => s.beside x y.2).length ≠ 1) → u = s.report (.trainStray x)))) ∧
  (∀ (s : State) (x : Nat) (t : TrainRec), s.beside x t = true ↔ t.state = .lost ∧ ∃ m, t.remembered = some m ∧
    (m.sec = x ∨ ∃ r, s.section? m.sec = some r ∧ ∃ e ∈ r.cfg.kind.ends, (s.across m.sec e).map (fun a => a.1) = some x)) ∧
  (∀ (s : State) (x : Nat), s.tablesWf = true →
    let u := trackClear x s
    let follows := s.fc.condition = .healthy
    (∀ y ∈ u.tt.trains, y.2.ambiguity ≠ some x) ∧
    (∀ m t, s.train? m = some t → ¬ (follows ∧ s.holder x = some m) →
      (u.train? m).map (fun a => (a.list, a.lostTimer)) = some (t.list, t.lostTimer)) ∧
    (∀ n t, s.train? n = some t → follows → s.holder x = some n → t.list.length ≤ 6 →
      let left := t.list.drop (t.list.dropLast.takeWhile fun e => !s.occupied e.sec).length
      (u.train? n).map (fun a => (a.state, a.list, a.lostTimer)) = some (t.state, left,
        if t.state = .active ∧ t.lostTimer = none ∧ left.map (fun e => s.occupied e.sec) = [false]
        then some (s.now + 4000 * s.tt.lostTime) else t.lostTimer))) ∧
  (∀ (s : State) (n x : Nat) (t : TrainRec), s.tablesWf = true → s.train? n = some t → t.state = .active →
    let u := resolveAmbiguity n x s
    let ended := ((s.tt.trains.filter fun a => a.2.ambiguity == some x).map fun a => a.1).foldl
      (fun v m => changeHolds m (fun a => { a with ambiguity := none }) v) s
    let dropped := if 6 ≤ t.list.length
      then ixListChange n ((t.list.head?).map fun e => e.sec) (ended.setTrain n fun a => { a with list := a.list.drop 1 })
      else ended
    (∀ y ∈ u.tt.trains, y.2.ambiguity ≠ some x) ∧
    (u.train? n).map (fun a => a.list) = some (match s.reaches t x with
      | some f => if s.occupied x = true ∧ s.holder x = none
          then (if 6 ≤ t.list.length then t.list.drop 1 else t.list) ++
            [{ sec := x, exit := (dropped.far x f).getD f, entry := f }]
          else t.list
      | none => t.list) ∧
    (∀ m, m ≠ n → (u.train? m).map (fun a => a.list) = (s.train? m).map fun a => a.list)) ∧
  (∀ (s : State) (n x : Nat) (before : List (Nat × Aspect)) (e : TrainEvent),
    handle (.trackOccupied x before) s = trackOccupied x before s ∧
    handle (.trackClear x) s = trackClear x s ∧
    handle (.placement n) s = placement n s ∧
    handle (.holdsChange n) s = judgeStart (placement n s) ∧
    handle (.driverLink n) s = judgeStart (placement n s) ∧
    handle .judgeStart s = judgeStart s ∧
    handle (.trainChange n e) s = vuTrainChange n e s ∧
    handle (.passedStop n) s = vuPassedStop n s ∧
    handle (.dwellOver n) s = dwellOver n s ∧
    handle .conditionChange s = (if s.fc.condition = .healthy then considerPulse (reexamine s)
      else { s with tt := { s.tt with trains := s.tt.trains.map fun t => (t.1, { t.2 with lostTimer := none }) } })) ∧
  (∀ s : State,
    let due := (s.tt.trains.filter fun t => t.2.trailDue).map fun t => t.1
    let removed := due.foldl (fun u n => trailing n (u.setTrain n fun t => { t with trailDue := false })) s
    let active := (removed.tt.trains.filter fun t => t.2.state == .active).map fun t => t.1
    let swept := refreshSignals (active.foldl (fun u n => judgeLost n u) removed)
    let strays := (swept.sections.filter fun x => x.2.occupied && (swept.holder x.1).isNone).map fun x => x.1
    handle .resumption s = swept.handAll (strays.map fun x => .trackOccupied x swept.aspects)) ∧
  (∀ (s : State) (n : Nat),
    trailing n s = judgeLost n (trimList 6 n s) ∧ trimList 0 n s = s ∧
    (∀ k, trimList (k + 1) n s = match s.listOf n with
      | e :: _ :: _ => if s.occupied e.sec = true then s
          else trimList k n ((ixListChange n (some e.sec) (s.setTrain n fun t => { t with list := t.list.drop 1 })).hand
            (.listChange n))
      | _ => s) ∧
    (let alone := s.fc.condition = .healthy ∧ ∃ t e, s.train? n = some t ∧ t.state = .active ∧ t.lostTimer = none ∧
        t.list = [e] ∧ s.occupied e.sec = false
     (alone → judgeLost n s = s.setTrain n fun t => { t with lostTimer := some (s.now + 4000 * s.tt.lostTime) }) ∧
     (¬ alone → judgeLost n s = s)))

/-! ## The governor (chapter 7) -/

/-- The target step of a train is the greatest step that every term of R113 allows, with the cap of the signal that
its lead stands at, or of the STOP one section on (R114); and at a tick the current step of every ACTIVE train moves
toward sixteen times it by R116, whole: never above it by a rise, never down by more than the rate that applies, and
never beyond 2032. With them, what a neighbour resolves to, what the far end is (R5 to R8), and which sections are
near the bridge (R113). The model's choices: of several sections of kind BRIDGE the lowest is the bridge section (log
51), and an end that two roads name is answered for the road at bridge end A (log 37). What lies across a TURNTABLE
end of a BRIDGE section beside the one bridge section is the model's choice (log 67). -/
def Obligations.TargetsAndRampsFollowR113AndR116 : Prop :=
  (∀ (s : State) (t : TrainRec) (m : Nat), m ≤ s.target t ↔
    m ≤ 127 ∧ m ≤ t.demand ∧ (∀ e ∈ t.list, ∀ r, s.section? e.sec = some r → m ≤ r.cfg.speedLimit) ∧
    (∀ c, t.cap = some c → m ≤ c) ∧ (∀ c, s.lookAhead t = some c → m ≤ c) ∧
    ((∃ e ∈ t.list, s.nearBridge e.sec = true) → m ≤ s.dg.bridgeCap) ∧
    (t.passedStop = true ∨ t.channelConflict = true ∨ t.ambiguity ≠ none ∨ t.onTurn = true ∨ t.reversing = true ∨
      t.showWait = true → m = 0) ∧
    (s.fc.condition ≠ .healthy → m = 0)) ∧
  (∀ (s : State) (t : TrainRec),
    let aspectAt := fun (x : Nat) (e : EndName) => ((s.signalAt x e).bind s.signal?).map fun g => g.aspect
    (t.list = [] → s.lookAhead t = none) ∧
    (∀ e, t.list.getLast? = some e → s.lookAhead t = if s.signalAt e.sec e.exit ≠ none
      then match aspectAt e.sec e.exit with
        | some .stop => some 0
        | some .shunt => some s.ix.shuntCap
        | some .caution => some s.ix.cautionCap
        | some .prelim => some s.ix.prelimCap
        | _ => none
      else match s.across e.sec e.exit with
        | none => none
        | some (x, f) => match s.far x f with
          | none => none
          | some g => if aspectAt x g = some .stop then some s.ix.cautionCap else none)) ∧
  (∀ (s : State) (x : Nat) (e : EndName),
    (s.signalAt x e = none ↔ ∀ g ∈ s.ix.signals, g.2.cfg.location ≠ some (x, e)) ∧
    (∀ n, s.signalAt x e = some n → ∃ g ∈ s.ix.signals, g.1 = n ∧ g.2.cfg.location = some (x, e))) ∧
  (∀ s : State,
    let rate := fun (n : Nat) (t : TrainRec) =>
      if t.passedStop = true ∨ t.channelConflict = true ∨ t.ambiguity ≠ none ∨ n ∈ s.dg.replacement
      then t.cfg.emergency else t.cfg.brake
    let next := fun (n : Nat) (t : TrainRec) =>
      if t.current < 16 * s.target t then min (t.current + t.cfg.accel) (16 * s.target t)
      else if 16 * s.target t < t.current then max (t.current - rate n t) (16 * s.target t)
      else t.current
    (rampTrains s).tt.trains = (s.tt.trains.map fun e =>
      (e.1, if e.2.state = .active then { e.2 with current := next e.1 e.2 } else e.2)) ∧
    ∀ n t, (t.current < next n t → next n t ≤ 16 * s.target t) ∧ t.current - next n t ≤ rate n t ∧
      (t.current ≤ 2032 → next n t ≤ 2032) ∧
      (t.current ≤ 2032 → rate n t = 2032 → 16 * s.target t ≤ t.current → next n t = 16 * s.target t)) ∧
  (∀ s : State, s.tablesWf = true →
    (∀ b, s.bridgeSection = some b ↔ ∃ r, s.section? b = some r ∧ r.cfg.kind = .bridge ∧
      ∀ y q, s.section? y = some q → y < b → q.cfg.kind ≠ .bridge) ∧
    (∀ x, s.nearBridge x = true ↔ (∃ r, s.section? x = some r ∧ r.cfg.kind = .bridge) ∨ ∃ e ∈ s.tu.roads, e.2.sec = some x)) ∧
  (∀ (s : State) (x : Nat) (e : EndName), s.across x e = s.resolve {} x e ∧ s.far x e = s.farEnd {} x e) ∧
  (∀ (s : State) (st : Stated) (p : Nat), s.pointAt st p = match st.points.find? fun q => q.1 == p with
    | some q => some q.2
    | none => match s.point? p with
      | none => none
      | some r => match r.position with
        | .normal => some .n
        | .reverse => some .r
        | _ => none) ∧
  (∀ (s : State) (k : Nat) (e : BridgeEnd) (points : List (Nat × PointPos)),
    s.facings { points := points } = (if s.tu.state = .aligned then (s.tu.faceA, s.tu.faceB) else (none, none)) ∧
    (∀ b d, s.tu.bridge = some b → Table.find s.tu.roads k = some d →
      s.facings { points := points, bridge := some (k, e) } = match e with
        | .a => (some k, facedRoad b.steps s.tu.roads d.position .b)
        | .b => (facedRoad b.steps s.tu.roads ((d.position + b.steps / 2) % b.steps) .a, some k))) ∧
  (∀ (s : State) (st : Stated) (x : Nat) (e : EndName),
    let stands := fun (c : SectionCfg) => c.point.bind (s.pointAt st)
    let live := fun (c : SectionCfg) (e : EndName) => e ∈ c.kind.ends ∧ (c.kind = .point →
      (stands c = some .n ∧ (e = .toe ∨ e = .normal)) ∨ (stands c = some .r ∧ (e = .toe ∨ e = .reverse)))
    let faced := s.facings st
    let road := fun (k : Option Nat) => k.bind (Table.find s.tu.roads)
    let names := fun (k : Option Nat) => (road k).map (fun d => (d.sec, d.bridgeEnd.toEnd)) = some (some x, e)
    (s.section? x = none → s.resolve st x e = none ∧ s.farEnd st x e = none) ∧
    (∀ r, s.section? x = some r →
      (e ∉ r.cfg.kind.ends ∨ r.cfg.neighbour e = .buffer → s.resolve st x e = none) ∧
      (∀ t f, e ∈ r.cfg.kind.ends → r.cfg.neighbour e = .sectionEnd t f →
        s.resolve st x e = none ∨ s.resolve st x e = some (t, f)) ∧
      (∀ t f, e ∈ r.cfg.kind.ends → r.cfg.neighbour e = .sectionEnd t f →
        (s.resolve st x e = some (t, f) ↔ live r.cfg e ∧ ∃ q, s.section? t = some q ∧ live q.cfg f)) ∧
      (e ∈ r.cfg.kind.ends → r.cfg.neighbour e = .turntable →
        s.resolve st x e = match s.bridgeSection with
          | none => none
          | some b =>
            if r.cfg.kind = .bridge then
              (road (if e = .a then faced.1 else faced.2)).bind fun d => d.sec.map fun y => (y, d.bridgeEnd.toEnd)
            else if names faced.1 then some (b, .a)
            else if names faced.2 then some (b, .b)
            else none) ∧
      s.farEnd st x e = match r.cfg.kind, e with
        | .plain, .a | .bridge, .a => some .b
        | .plain, .b | .bridge, .b => some .a
        | .point, .toe => (stands r.cfg).map fun pos => if pos = .n then EndName.normal else .reverse
        | .point, .normal | .point, .reverse => some .toe
        | _, _ => none))

/-- Duty and compare of a train (R118), the polarity it requires (R119), and the settling of a channel among its trains
(R120) under the stop cut and the stepping bridge (R122, lines 1 and 2). -/
def Obligations.ChannelsSettleByR118ToR122 : Prop :=
  (∀ (t : TrainCfg) (c p : Nat),
    t.duty c = (if c = 0 then 0 else t.v0 + (t.vmax - t.v0) * c / 2032) ∧
    compareOf (t.duty c) p = (t.duty c * p + 500) / 1000 ∧ compareOf 1000 p = p ∧
    (t.v0 < t.vmax → t.vmax ≤ 1000 → t.duty 1 = t.v0 ∧ t.duty 2032 = t.vmax ∧
      (∀ d, c ≤ d → t.duty c ≤ t.duty d) ∧ (c ≤ 2032 → compareOf (t.duty c) p ≤ p))) ∧
  (∀ (s : State) (t : TrainRec) (c : Nat) (p : Polarity), p ∈ s.polaritiesOn t c ↔
    ∃ e ∈ t.list, ∃ r, s.section? e.sec = some r ∧ r.cfg.channel = some c ∧
      p = match e.exit, r.cfg.sense with
        | .a, .plus | .toe, .plus => .pos
        | .a, .minus | .toe, .minus => .neg
        | _, .plus => .neg
        | _, .minus => .pos) ∧
  (∀ (s : State) (c : Nat), s.trainsOn c = s.tt.trains.filterMap fun e =>
    if e.2.state = .active ∧ s.polaritiesOn e.2 c ≠ [] then
      some { train := e.1, compare := compareOf (e.2.cfg.duty e.2.current) s.dg.period
             polarities := s.polaritiesOn e.2 c }
    else none) ∧
  (∀ (s : State) (c : Nat) (ch : Channel),
    let ts := s.trainsOn c
    let new := s.settleChannel c ch
    let cut := (∃ g ∈ s.ix.signals, g.2.stopCut = true ∧ ∃ x r, g.2.cfg.stopSection = some x ∧ s.section? x = some r ∧
        r.cfg.channel = some c) ∨
      ((s.tu.state = .homing ∨ s.tu.state = .moving ∨ s.tu.state = .stopping) ∧
        ∃ x ∈ s.sections, x.2.cfg.kind = .bridge ∧ x.2.cfg.channel = some c)
    (cut → new.shadow = 0) ∧
    (ts = [] → new.shadow = 0 ∧ new.shadowPolarity = ch.shadowPolarity ∧ new.conflict = false) ∧
    (∀ p, ts ≠ [] → (∀ t ∈ ts, ∀ q ∈ t.polarities, q = p) → new.shadowPolarity = p ∧ new.conflict = false ∧
      (∀ t ∈ ts, new.shadow ≤ t.compare) ∧ (¬ cut → ∃ t ∈ ts, new.shadow = t.compare)) ∧
    ((∃ t ∈ ts, Polarity.pos ∈ t.polarities) → (∃ t ∈ ts, Polarity.neg ∈ t.polarities) →
      new.shadow = 0 ∧ new.shadowPolarity = ch.shadowPolarity ∧ new.conflict = true) ∧
    new.compare = ch.compare ∧ new.polarity = ch.polarity ∧ new.output = ch.output ∧ new.force = ch.force)

/-- The governor tick (R112): it takes place when the divider has reached K, writes no shadow and no train in CONFIG,
holds every train and shadow at 0 while emergency stop is active (R123), and in RUN sets the replacement flags (R115),
ramps the trains, settles the channels and judges every ACTIVE train's channel conflict, in ascending order: a train
that comes to be on a channel in conflict has it in its hold set with the report DRIVE-CONFLICT naming the lowest such
channel, one that ceases has it out with the report DRIVE-CONFLICT CLEAR, and each change of a hold set is handed on
(R121). The state after the tick is spelled whole. What GET CHANNEL shows of the last tick follows each tick (R108).
The model's choices: a tick before the divider reaches K does nothing (logs 20 and 2), no cut is judged at a tick
under emergency stop (log 42), nor is a channel's own conflict (log 62), CONFIG comes before emergency stop (log 43),
and the conflicts of R121 are taken and reported before the readers take the changes of step of R117 (log 5). -/
def Obligations.GovernorTicksFollowR112 : Prop :=
  ∀ s : State, s.AtRest → s.tablesWf = true →
    let started : State := { s with dg := { s.dg with divider := 0 } }
    (s.dg.divider < max 1 (80000 / s.dg.period) → exec .governorTick s = .next (arbitrate (workOut s s))) ∧
    (max 1 (80000 / s.dg.period) ≤ s.dg.divider →
      (s.mode = .config → exec .governorTick s = .next (arbitrate (workOut s { started with
        dg := { started.dg with channels := s.dg.channels.map fun (ch : Channel) =>
          { ch with lastTrains := [], lastStopCut := false, lastBridgeCut := false } } }))) ∧
      (s.mode = .run → s.ss.stop = true →
        let halted : State := { started with tt := { s.tt with trains := s.tt.trains.map fun e =>
          (e.1, if e.2.state = .active then { e.2 with current := 0 } else e.2) } }
        exec .governorTick s = .next (arbitrate (workOut s { halted with
          dg := { started.dg with channels := s.dg.channels.mapIdx fun c ch =>
            { ch with shadow := 0, lastTrains := halted.trainsOn c, lastStopCut := false, lastBridgeCut := false } } }))) ∧
      (s.mode = .run → s.ss.stop = false →
        let flagged := setReplacements started
        let ramped := rampTrains flagged
        (∀ n, n ∈ flagged.dg.replacement ↔ n ∈ s.dg.replacement ∨ ∃ t e, s.train? n = some t ∧ t.state = .active ∧
          t.list.getLast? = some e ∧ ∃ g ∈ s.ix.signals, g.2.cfg.location = some (e.sec, e.exit) ∧
            g.1 ∈ s.dg.fallen ∧ g.2.aspect = .stop) ∧
        flagged.dg.fallen = [] ∧
        (∀ n, n ∈ ramped.dg.replacement ↔ n ∈ flagged.dg.replacement ∧ ∃ t, flagged.train? n = some t ∧
          t.state = .active ∧ 16 * flagged.target t < ramped.currentOf n) ∧
        ∃ u, exec .governorTick s = .next (arbitrate (workOut s u)) ∧
          u.dg.divider = 0 ∧ u.dg.replacement = ramped.dg.replacement ∧ u.dg.fallen = [] ∧
          u.dg.channels = s.dg.channels.mapIdx (fun c ch => ramped.settleChannel c ch) ∧
          (∀ n, u.currentOf n = ramped.currentOf n) ∧
          (∀ n t, u.train? n = some t → t.state = .active →
            (t.channelConflict = true ↔ ∃ ch ∈ u.dg.channels, ch.conflict = true ∧ ∃ a ∈ ch.lastTrains, a.train = n)) ∧
          (∀ n t, s.train? n = some t → t.state = .active → (t.current = 0 ↔ u.currentOf n ≠ 0) →
            Notice.stepChange n ∈ u.agenda) ∧
          (let steps := (started.tt.trains.filter fun a => a.2.state = .active ∧
             (a.2.current = 0 ↔ ramped.currentOf a.1 ≠ 0)).map fun a => a.1
           let handed : State := { ramped with
             dg := { ramped.dg with channels := s.dg.channels.mapIdx fun c ch => ramped.settleChannel c ch }
             agenda := ramped.agenda ++ steps.map Notice.stepChange }
           let judge := fun (v : State) (n : Nat) =>
             match v.train? n, (v.dg.channels.zipIdx.filter fun a =>
                 a.1.conflict = true ∧ ∃ b ∈ a.1.lastTrains, b.train = n).map fun a => a.2 with
             | none, _ => v
             | some a, c :: _ => if a.channelConflict = true then v
               else (changeHolds n (fun b => { b with channelConflict := true }) v).report (.trainConflict n c)
             | some a, [] => if a.channelConflict = true then
                 (changeHolds n (fun b => { b with channelConflict := false }) v).report (.trainConflictClear n)
               else v
           u = ((handed.tt.trains.filter fun a => a.2.state == .active).map fun a => a.1).foldl judge handed)))

/-! ## The turntable (chapter 8) -/

/-- TURN k E (R129 to R131), TURN HOME (R128) and TURN STOP (R134): the first condition of each table decides; a move
goes the way and the number of steps R131 gives, and the train alone on the bridge is carried. What emergency stop
does (R135), how the bridge comes to rest (R125, R133), the report it then makes (R127) and who is told that the move
has ended are stated with them, and so are the road that an end faces (R125) and the refusals of a move that a route
or a show asks for (R129, R130). That a route is told of a move's end only when its present setting asked for the move
is the model's choice (log 47). -/
def Obligations.TheBridgeMovesByR128ToR135 : Prop :=
  (∀ s : State, s.carriagePasses = true ↔ ∀ b, s.bridgeSection = some b →
    (∀ t ∈ s.tt.trains, (∃ e ∈ t.2.list, e.sec = b) → t.2.list.length = 1 ∧ t.2.current = 0) ∧
    (s.occupied b = true → ∃ t ∈ s.tt.trains, ∃ e ∈ t.2.list, e.sec = b)) ∧
  (∀ s : State,
    (s.aloneOnBridge = none ↔ ∀ b, s.bridgeSection = some b → ∀ t ∈ s.tt.trains, t.2.list.map (fun e => e.sec) ≠ [b]) ∧
    (∀ n, s.aloneOnBridge = some n → ∃ b, s.bridgeSection = some b ∧ ∃ t ∈ s.tt.trains, t.1 = n ∧
      t.2.list.map (fun e => e.sec) = [b])) ∧
  (∀ (s : State) (k : Nat) (e : BridgeEnd) (dir : Option MoveDir), s.Ready →
    let carried := fun (u : State) => match s.aloneOnBridge with
      | none => u
      | some n => { u.setTrain n (fun t => { t with onTurn := true }) with
          tu := { u.tu with carried := some n } }.hand (.holdsChange n)
    let steps := s.tu.state = .homing ∨ s.tu.state = .moving ∨ s.tu.state = .stopping
    let no := fun (c : Code) (o : Option Obj) => Host.Outcome.next (deliver (workOut s s, Reply.no c o))
    exec (.turn k none dir) s = no .range none ∧
    (24 ≤ k → exec (.turn k (some e) dir) s = no .range none) ∧
    (k < 24 → (s.tu.bridge = none ∨ Table.find s.tu.roads k = none) → exec (.turn k (some e) dir) s = no .unknown none) ∧
    (∀ b road, k < 24 → s.tu.bridge = some b → Table.find s.tu.roads k = some road →
      let target := if e = .a then road.position else (road.position + b.steps / 2) % b.steps
      (b.steps ≤ road.position → exec (.turn k (some e) dir) s = no .range (some (.road k))) ∧
      (road.position < b.steps →
        (s.ss.stop = true → exec (.turn k (some e) dir) s = no .stopped none) ∧
        (s.ss.stop = false →
          (s.tu.state = .unhomed ∨ s.tu.state = .homing ∨ s.tu.state = .fault →
            exec (.turn k (some e) dir) s = no .state (some .turntable)) ∧
          (s.tu.state = .moving ∨ s.tu.state = .stopping → exec (.turn k (some e) dir) s = no .busy none) ∧
          (s.tu.state = .stopped ∨ s.tu.state = .aligned →
            (s.fc.condition ≠ .healthy → exec (.turn k (some e) dir) s = no .state (some .chain)) ∧
            (s.fc.condition = .healthy → s.tu.locks ≠ [] →
              exec (.turn k (some e) dir) s = no .locked (some .turntable)) ∧
            (s.fc.condition = .healthy → s.tu.locks = [] → s.carriagePasses = false →
              exec (.turn k (some e) dir) s = no .occupied (some .turntable)) ∧
            (∀ pos, s.fc.condition = .healthy → s.tu.locks = [] → s.carriagePasses = true → s.tu.position = some pos →
              let cw := (target + b.steps - pos) % b.steps
              let way : MoveDir := match dir with
                | some d => d
                | none => if cw ≤ b.steps - cw then MoveDir.cw else MoveDir.ccw
              (cw = 0 → exec (.turn k (some e) dir) s = .next (deliver (workOut s s, .ok (.turnAligned k e)))) ∧
              (cw ≠ 0 → exec (.turn k (some e) dir) s = .next (deliver (workOut s (carried
                (({ s with tu := { s.tu with
                  state := .moving, faceA := none, faceB := none, rate := b.rMin, tdir := (way == MoveDir.cw)
                  move := some { target := target, road := k, bridgeEnd := e, dir := way
                                 toGo := if way = MoveDir.cw then cw else b.steps - cw, origin := .link }
                  interval := 4000000 / b.rMin, shadowInterval := 4000000 / b.rMin
                  stepDue := some (s.now + 4000000 / b.rMin), rateDue := some (s.now + 40000) } }.report
                    (.turnMoving k e way)).hand .bridgeChange)), .ok (.turnMoving k e way))))))))) ∧
    exec .turnHome s = (match s.tu.bridge with
      | none => no .unknown none
      | some b =>
        if s.ss.stop = true then no .stopped none
        else if steps then no .busy none
        else if s.fc.condition ≠ .healthy then no .state (some .chain)
        else if s.tu.locks ≠ [] then no .locked (some .turntable)
        else if s.carriagePasses = false then no .occupied (some .turntable)
        else .next (deliver (workOut s (carried
          (({ s with tu := { s.tu with
            state := .homing, position := none, faceA := none, faceB := none, homingCount := 0, rate := b.rMin
            tdir := true, interval := 4000000 / b.rMin, shadowInterval := 4000000 / b.rMin
            stepDue := some (s.now + 4000000 / b.rMin), rateDue := none } }.report .turnHoming).hand .bridgeChange)),
          .ok (.turnState .homing)))) ∧
    exec .turnStop s = .next (deliver (match s.tu.state with
      | .moving => (workOut s (({ s with tu := { s.tu with state := .stopping } }.report .turnStopping).hand
          .bridgeChange), .ok (.turnState .stopping))
      | .homing => (workOut s (losePosition .unhomed (.turnUnhomed false) s), .ok (.turnState .unhomed))
      | st => (workOut s s, .ok (.turnState st))))) ∧
  (∀ s : State,
    (s.tu.state = .homing → turntableStop s = losePosition .unhomed (.turnUnhomed false) s) ∧
    (∀ pos, s.tu.state = .moving ∨ s.tu.state = .stopping → s.tu.position = some pos →
      turntableStop s = restAt pos s) ∧
    (¬ s.tu.ten = true → turntableStop s = s)) ∧
  (∀ (s : State) (b : BridgeCfg) (pos : Nat), s.tu.bridge = some b →
    let t := restAt pos s
    let fa := facedRoad b.steps s.tu.roads pos .a
    let fb := facedRoad b.steps s.tu.roads pos .b
    t.tu.position = some pos ∧ t.tu.faceA = fa ∧ t.tu.faceB = fb ∧
    t.tu.state = (if fa = none ∧ fb = none then .stopped else .aligned) ∧
    t.tu.rate = 0 ∧ t.tu.stepDue = none ∧ t.tu.rateDue = none ∧ t.tu.move = none ∧ t.tu.carried = none ∧
    t.tu.locks = s.tu.locks ∧ Notice.bridgeChange ∈ t.agenda ∧
    (∀ n u, s.tu.carried = some n → t.train? n = some u → u.onTurn = false) ∧
    t.hl = s.hl.report (match s.tu.move.filter (fun m => m.target == pos), fa, fb with
      | some m, _, _ => .turnAligned m.road m.bridgeEnd
      | none, some k, _ => .turnAligned k .a
      | none, none, some k => .turnAligned k .b
      | none, none, none => .turnStopped pos) ∧
    (∀ m, s.tu.move = some m →
      (∀ r, m.origin = .route r → ∀ q, s.route? r = some q → (t.route? r).map (fun a => a.asked) = some false ∧
        (q.asked = false → t.ix = s.ix)) ∧
      ((∀ r, m.origin = .route r → (s.route? r).map (fun q => q.asked) = some true) →
        Notice.moveEnded m.origin (if m.target = pos then .atTarget else .elsewhere) ∈ t.agenda))) ∧
  (∀ (s : State) (st : BridgeState) (rep : Report),
    let t := losePosition st rep s
    t.tu.state = st ∧ t.tu.position = none ∧ t.tu.faceA = none ∧ t.tu.faceB = none ∧ t.tu.rate = 0 ∧
    t.tu.stepDue = none ∧ t.tu.rateDue = none ∧ t.tu.move = none ∧ t.tu.carried = none ∧
    t.hl = s.hl.report rep ∧
    (∀ m, s.tu.move = some m → (∀ r, m.origin = .route r → (s.route? r).map (fun q => q.asked) = some true) →
      Notice.moveEnded m.origin .fault ∈ t.agenda)) ∧
  (∀ (n : Nat) (roads : Table RoadCfg) (pos : Nat) (e : BridgeEnd), Table.wf roads = true →
    let faces := fun (d : RoadCfg) => d.position < n ∧
      pos = if e = .a then d.position else (d.position + n / 2) % n
    (facedRoad n roads pos e = none ↔ ∀ x ∈ roads, ¬ faces x.2) ∧
    (∀ k, facedRoad n roads pos e = some k ↔ ∃ d, Table.find roads k = some d ∧ faces d ∧
      ∀ x ∈ roads, x.1 < k → ¬ faces x.2)) ∧
  (∀ (s : State) (k : Nat) (e : BridgeEnd) (origin : Origin),
    moveRefusal s k e origin =
      if 24 ≤ k then some (.range, none)
      else match s.tu.bridge, Table.find s.tu.roads k with
        | some b, some d =>
          if b.steps ≤ d.position then some (.range, some (.road k))
          else if s.ss.stop = true then some (.stopped, none)
          else if s.tu.state = .unhomed ∨ s.tu.state = .homing ∨ s.tu.state = .fault then some (.state, some .turntable)
          else if s.tu.state = .moving ∨ s.tu.state = .stopping then some (.busy, none)
          else if s.fc.condition ≠ .healthy then some (.state, some .chain)
          else if (match origin with
              | .route _ => s.tu.locks.any fun r => (s.route? r).any fun q => q.cfg.bridge != some (k, e)
              | _ => !s.tu.locks.isEmpty) = true then some (.locked, some .turntable)
          else if s.carriagePasses = false then some (.occupied, some .turntable)
          else none
        | _, _ => some (.unknown, none))

/-- STEP (R128, R132, R133), RATE_UPDATE (R132, R134) and THOME_EDGE (R128, R136), in every state of the bridge: the
steps and the position counted, the limit of a homing, the rate's acceleration and braking, the drift check and its
three sizes. The model's choices: STEP and RATE_UPDATE at rest, and RATE_UPDATE in HOMING, do nothing
(log 2), and a drift greater than the steps to go ends the move at position 0, also when the target is next to it (log 57). -/
def Obligations.StepsRatesAndEdgesFollowR132AndR136 : Prop :=
  ∀ s : State, s.AtRest →
    (∀ b, s.tu.bridge = some b → s.tu.state = .homing →
      let t := s.expire s.tu.stepDue
      let u := { t with tu := { t.tu with pulses := t.tu.pulses + 1, homingCount := t.tu.homingCount + 1 } }
      exec .bridgeStep s = .next (arbitrate (workOut s (
        if 11 * b.steps / 10 ≤ s.tu.homingCount + 1 then losePosition .fault .turnFaultHome u
        else { u with tu := { u.tu with stepDue := some (t.now + s.tu.interval) } }))) ∧
      exec .thomeEdge s = .next (arbitrate (workOut s (restAt 0 s))) ∧
      exec .rateUpdate s = .next (arbitrate (workOut s s))) ∧
    (∀ b m pos, s.tu.bridge = some b → s.tu.move = some m → s.tu.position = some pos →
      s.tu.state = .moving ∨ s.tu.state = .stopping →
      let t := s.expire s.tu.stepDue
      let next := if m.dir = .cw then (pos + 1) % b.steps else (pos + b.steps - 1) % b.steps
      let u := { t with tu := { t.tu with
        pulses := t.tu.pulses + 1, position := some next, move := some { m with toGo := m.toGo - 1 }
        interval := t.tu.shadowInterval } }
      let d : Int := if pos < b.steps / 2 then (pos : Int) else (pos : Int) - b.steps
      let along := (m.dir = .cw ∧ d < 0) ∨ (m.dir = .ccw ∧ 0 < d)
      let said := if 3 ≤ d.natAbs then s.report (.turnDrift d) else s
      exec .bridgeStep s = .next (arbitrate (workOut s (
        if m.toGo ≤ 1 then restAt next u
        else { u with tu := { u.tu with stepDue := some (t.now + s.tu.shadowInterval) } }))) ∧
      exec .thomeEdge s = .next (arbitrate (workOut s (
        if 32 < d.natAbs then losePosition .fault (.turnFaultDrift d) s
        else if along ∧ m.toGo ≤ d.natAbs then
          restAt 0 { said with tu := { said.tu with position := some 0, move := some { m with toGo := 0 } } }
        else { said with tu := { said.tu with
          position := some 0
          move := some { m with toGo := if along then m.toGo - d.natAbs else m.toGo + d.natAbs } } }))) ∧
      (let v := s.expire s.tu.rateDue
       let a := max 1 (b.accel / 100)
       let top := max b.rMax b.rMin
       let r := s.tu.rate
       let braking := (r * r - b.rMin * b.rMin) / (2 * b.accel) + 1
       let rated := fun (n : Nat) => { v with tu := { v.tu with
         rateDue := some (v.now + 40000), rate := n, shadowInterval := 4000000 / n } }
       (s.tu.state = .moving → exec .rateUpdate s = .next (arbitrate (workOut s (rated (
         if braking < m.toGo then (if r < top then min (r + a) top else r)
         else if b.rMin < r then max (r - a) b.rMin else r))))) ∧
       (s.tu.state = .stopping → exec .rateUpdate s = .next (arbitrate (workOut s (
         if b.rMin < r then rated (max (r - a) b.rMin) else restAt pos v)))))) ∧
    (¬ s.tu.ten = true →
      exec .bridgeStep s = .next (arbitrate (workOut s s)) ∧ exec .thomeEdge s = .next (arbitrate (workOut s s)) ∧
      exec .rateUpdate s = .next (arbitrate (workOut s s)))

/-! ## Shows, the mimic panel and the boards (chapter 9) -/

/-- SHOW n ENABLE, DISABLE and ABORT by R143's tables, the press of a button (R139), the visits of the waiting line
and the start of a show (R140), the beginning of a leg and the outcome of its store (R141), the expiries of a show's
leg, dwell and cool-down timers (R142, R143), the arrival of a leg, the end of a turn and of the show (R142), and what
an abort does, reports and leaves alone (R143). A dwell of 0 that is over does what the expiry of the dwell timer
does: the leg ends, or its turn is asked (R142). And when a show becomes READY or UNAVAILABLE (R138), what a train's
change, a passed STOP, a change of step, a route's change or failure and a dropped request do to the shows (R141,
R143). The model's choices: an expiry of a timer that is stopped, or of a show in another state, does nothing (log 2),
the leg timer runs on through the dwell of a leg without a route (log 18), a show that leaves RUNNING has its leg and
phase back at 0 and ROUTE-WAIT (log 52), several shows of one train arrive in ascending order (log 56), and a train
that its removal has taken off the layout keeps the demand 0 and the empty hold set of that removal when its show then
ends (log 75). -/
def Obligations.ShowsFollowR142AndR143 : Prop :=
  (∀ (s : State) (n : Nat) (w : ShowRec), s.show? n = some w →
    (w.state ≠ .ready → pressShow n s = s) ∧
    (w.state = .ready →
      let t := (s.setShow n fun w => { w with state := .pending }).report (.showState n .pending)
      pressShow n s = { t with vu := { t.vu with waiting := s.vu.waiting ++ [n] } }.hand .judgeStart)) ∧
  (∀ s : State, judgeStart s = s.vu.waiting.foldl (fun t n => visitShow n t) s) ∧
  (∀ (s : State) (n : Nat) (w : ShowRec), s.show? n = some w →
    let starts := w.state = .pending ∧ (s.vu.shows.filter fun x => x.2.state = .running).length < 4 ∧ s.ss.stop = false ∧
      ∃ m, w.cfg.train = some m ∧ ∃ t, s.train? m = some t ∧ t.state = .active ∧ t.passedStop = false ∧
        t.channelConflict = false ∧ t.ambiguity = none ∧ t.onTurn = false ∧ t.reversing = false ∧ t.showWait = false ∧
        t.driver = .link ∧ t.current = 0
    (¬ starts → visitShow n s = s) ∧
    (∀ m, starts → w.cfg.train = some m →
      let t := ({ s with vu := { s.vu with waiting := s.vu.waiting.filter fun k => k != n } }.setShow n fun w =>
        { w with state := .running }).report (.showState n .running)
      visitShow n s = beginLeg n 0 (withdrawRequests (.train m)
        (t.setTrain m fun a => { a with driver := .show n, demand := 0, mark := .none })))) ∧
  (∀ (s : State) (n i : Nat) (w : ShowRec), s.show? n = some w →
    let leg := (w.cfg.legs[i]?).getD {}
    let due := s.now + 4000000 * w.cfg.legTimeout
    let began := { w with leg := i, legTimer := some due, dwellTimer := none, legExpiry := due, legOccupied := false }
    let t := (s.setShow n fun _ => began).report (.showLeg n i)
    (leg.route = none → beginLeg n i s =
      if leg.dwell = 0 then (t.setShow n fun w => { w with phase := .dwell }).hand (.dwellOver n)
      else t.setShow n fun w => { w with phase := .dwell, dwellTimer := some (s.now + 4000000 * leg.dwell) }) ∧
    (∀ r m q, leg.route = some r → w.cfg.train = some m → s.route? r = some q → r < 256 → s.mode = .run →
      let waits := changeHolds m (fun a => { a with showWait := true }) (t.setShow n fun w => { w with phase := .routeWait })
      let v := waits.setTrain m fun a => { a with demand := 0 }
      let pending := fun (b : Bool) (u : State) => u.setShow n fun w => { w with storePending := b }
      let runs := fun (u : State) => (changeHolds m (fun a => { a with showWait := false }) (u.setShow n fun w =>
        { w with phase := .run, storePending := false })).setTrain m fun a => { a with demand := leg.step }
      beginLeg n i s =
        if q.state = .set then runs v
        else if q.state ≠ .idle then pending true v
        else if ∃ e ∈ s.ix.requests, e.route = r then pending false v
        else if v.settable r q = none then
          (if ((enterSetting r q.cfg v).route? r).map (fun a => a.state) = some .set then runs (enterSetting r q.cfg v)
            else pending false (enterSetting r q.cfg v))
        else if 48 ≤ s.ix.requests.length then pending true v
        else pending false ({ v with ix := { v.ix with requests := v.ix.requests ++
          [Request.mk r (.show n) (some due)] } }.report (.routeQueued r (.show n))))) ∧
  (∀ (s : State) (n : Nat), s.Ready →
    let no := fun (c : Code) (o : Option Obj) => Host.Outcome.next (deliver (workOut s s, Reply.no c o))
    (8 ≤ n → exec (.showEnable n) s = no .range none ∧ exec (.showDisable n) s = no .range none ∧
      exec (.showAbort n) s = no .range none) ∧
    (n < 8 → s.show? n = none → exec (.showEnable n) s = no .unknown none ∧ exec (.showDisable n) s = no .unknown none ∧
      exec (.showAbort n) s = no .unknown none) ∧
    (∀ w, n < 8 → s.show? n = some w →
      let now := fun (st : ShowState) (u : State) => (u.setShow n fun w => { w with state := st }).report (.showState n st)
      let on := s.setShow n fun w => { w with cfg := { w.cfg with enabled := true } }
      let off := s.setShow n fun w => { w with cfg := { w.cfg with enabled := false } }
      let trainActive := ∃ m, w.cfg.train = some m ∧ ∃ t, s.train? m = some t ∧ t.state = .active
      (w.state = .unavailable → s.mode = .run → trainActive →
        exec (.showEnable n) s = .next (deliver (workOut s (now .ready on), .ok (.show n .ready)))) ∧
      (w.state = .ready ∨ w.state = .pending → s.mode = .config ∨ ¬ trainActive →
        exec (.showEnable n) s = .next (deliver (workOut s (now .unavailable (on.unwait n)), .ok (.show n .unavailable)))) ∧
      (w.state = .running ∨ w.state = .cooling ∨ (w.state = .unavailable ∧ (s.mode = .config ∨ ¬ trainActive)) ∨
          ((w.state = .ready ∨ w.state = .pending) ∧ s.mode = .run ∧ trainActive) →
        exec (.showEnable n) s = .next (deliver (workOut s on, .ok (.show n w.state)))) ∧
      exec (.showDisable n) s = .next (deliver (match w.state with
        | .running => (workOut s (abortShow n .disable off), .ok (.show n .cooling))
        | .ready | .pending => (workOut s (now .unavailable (off.unwait n)), .ok (.show n .unavailable))
        | st => (workOut s off, .ok (.show n st)))) ∧
      exec (.showAbort n) s = .next (deliver (
        if s.mode = .config then (workOut s s, .no .mode none)
        else match w.state with
          | .running => (workOut s (abortShow n .host s), .ok (.show n .cooling))
          | .pending => (workOut s (now .ready (s.unwait n)), .ok (.show n .ready))
          | _ => (workOut s s, .no .state (some (.show n))))))) ∧
  (∀ (s : State) (n : Nat) (w : ShowRec), s.AtRest → s.show? n = some w →
    (∀ d, w.state = .running → w.legTimer = some d → exec (.legTimerExpiry n) s =
      .next (arbitrate (workOut s (abortShow n .timeout { s with now := max s.now d })))) ∧
    (w.state ≠ .running ∨ w.legTimer = none → exec (.legTimerExpiry n) s = .next (arbitrate (workOut s s))) ∧
    (∀ d, w.state = .running → w.phase = .dwell → w.dwellTimer = some d →
      let u := { s with now := max s.now d }.setShow n fun w => { w with dwellTimer := none }
      let v := { s with now := max s.now d }.setShow n fun w => { w with
        phase := .turn, dwellTimer := none, legTimer := some (max s.now d + 4000000 * w.cfg.legTimeout) }
      exec (.showDwellTimerExpiry n) s = .next (arbitrate (workOut s (match (w.cfg.legs[w.leg]?.getD {}).target with
        | none => if w.leg + 1 < w.cfg.legs.length then beginLeg n (w.leg + 1) u else completeShow n w u
        | some (k, e) => match requestMove k e none (.show n) v with
          | .error _ => abortShow n .turn v
          | .ok (t, some _) => t
          | .ok (t, none) => endTurn n w t)))) ∧
    (w.dwellTimer = none → exec (.showDwellTimerExpiry n) s = .next (arbitrate (workOut s s))) ∧
    (∀ d, w.state = .cooling → w.coolTimer = some d →
      let ready := s.mode = .run ∧ w.cfg.enabled = true ∧
        ∃ m, w.cfg.train = some m ∧ ∃ t, s.train? m = some t ∧ t.state = .active
      (ready → exec (.coolDownTimerExpiry n) s = .next (arbitrate (workOut s
        (({ s with now := max s.now d }.setShow n fun w => { w with state := .ready, coolTimer := none }).report
          (.showState n .ready))))) ∧
      (¬ ready → exec (.coolDownTimerExpiry n) s = .next (arbitrate (workOut s
        (({ s with now := max s.now d }.setShow n fun w => { w with state := .unavailable, coolTimer := none }).report
          (.showState n .unavailable)))))) ∧
    (w.state ≠ .cooling ∨ w.coolTimer = none → exec (.coolDownTimerExpiry n) s = .next (arbitrate (workOut s s)))) ∧
  (∀ (s : State) (n : Nat) (w : ShowRec) (cause : AbortCause), s.show? n = some w → w.state = .running →
    let t := abortShow n cause s
    (∃ w', t.show? n = some w' ∧ w'.cfg = w.cfg ∧ w'.state = .cooling ∧ w'.legTimer = none ∧ w'.dwellTimer = none ∧
      w'.storePending = false ∧ w'.coolTimer = some (s.now + 4000000 * w.cfg.coolDown)) ∧
    (∀ q ∈ t.ix.requests, q.origin ≠ .show n) ∧ t.ix.routes = s.ix.routes ∧ t.tu = s.tu ∧
    (∀ m u, w.cfg.train = some m → t.train? m = some u → u.driver ≠ .show n) ∧ Notice.judgeStart ∈ t.agenda) ∧
  (∀ (s : State) (n t : Nat) (w : ShowRec), s.show? n = some w →
    let leg := (w.cfg.legs[w.leg]?).getD {}
    let arrives := w.state = .running ∧ w.phase = .run ∧ w.cfg.train = some t ∧ s.currentOf t = 0 ∧
      ∃ e, (s.listOf t).getLast? = some e ∧ ∃ r, leg.route = some r ∧ ∃ q, s.route? r = some q ∧ q.cfg.path.getLast? = some e.sec
    let stood := (s.setShow n fun w => { w with legTimer := none }).setTrain t fun a => { a with demand := 0 }
    (¬ arrives → judgeArrival t n s = s) ∧
    (arrives → judgeArrival t n s =
      if leg.dwell = 0 then (stood.setShow n fun w => { w with phase := .dwell, dwellTimer := none }).hand (.dwellOver n)
      else stood.setShow n fun w => { w with phase := .dwell, dwellTimer := some (s.now + 4000000 * leg.dwell) })) ∧
  (∀ (s : State) (t : Nat),
    let judged := ((s.vu.shows.filter fun x => x.2.state == .running && x.2.cfg.train == some t).map fun x => x.1).foldl
      (fun u n => judgeArrival t n u) s
    handle (.listChange t) s = judged ∧ (s.currentOf t = 0 → vuStepChange t s = judged.hand .judgeStart)) ∧
  (∀ (s : State) (n m : Nat) (w : ShowRec) (t : TrainRec), s.show? n = some w → w.cfg.train = some m → s.train? m = some t →
    let freed := fun (u : State) => if t.driver = .show n then
        (changeHolds m (fun a => { a with showWait := false, demand := 0, driver := .link }) u).hand (.driverLink m)
      else if t.driver = .link ∧ t.state ≠ .active then changeHolds m (fun a => { a with showWait := false, demand := 0 }) u
      else u
    let cooled := fun (u : State) => u.setShow n fun a => { a with
      state := .cooling, legTimer := none, dwellTimer := none, storePending := false, leg := 0, phase := .routeWait
      coolTimer := some (s.now + 4000000 * a.cfg.coolDown) }
    completeShow n w s = ((cooled (freed s)).report (.showState n .cooling)).hand .judgeStart ∧
    (w.state = .running → ∀ cause, abortShow n cause s =
      ((cooled (freed (withdrawRequests (.show n) s))).report (.showAbort n cause)).hand .judgeStart) ∧
    (let leg := (w.cfg.legs[w.leg]?).getD {}
     let turned := match leg.target, s.listOf m with
      | some (_, e), [a] => if s.bridgeSection = some a.sec ∧ a.exit ≠ e.toEnd
          then completeReversal m (changeHolds m (fun a => { a with reversing := true }) s) else s
      | _, _ => s
     let stopped := turned.setShow n fun w => { w with legTimer := none }
     endTurn n w s = (if w.leg + 1 < w.cfg.legs.length then beginLeg n (w.leg + 1) stopped else completeShow n w stopped)) ∧
    (∀ out, vuMoveEnded n out s = if w.state = .running ∧ w.phase = .turn
      then (match out with
        | .atTarget => endTurn n w s
        | .elsewhere | .fault => abortShow n .turn s)
      else s)) ∧
  (∀ (s : State) (n : Nat) (w : ShowRec), s.show? n = some w →
    let available := s.mode = .run ∧ w.cfg.enabled = true ∧
      ∃ m, w.cfg.train = some m ∧ ∃ t, s.train? m = some t ∧ t.state = .active
    let now := fun (st : ShowState) (u : State) => (u.setShow n fun w => { w with state := st }).report (.showState n st)
    (w.state = .unavailable → available → judgeAvailable n s = now .ready s) ∧
    (w.state = .ready ∨ w.state = .pending → ¬ available → judgeAvailable n s =
      now .unavailable { s with vu := { s.vu with waiting := s.vu.waiting.filter fun k => k != n } }) ∧
    (w.state = .running ∨ w.state = .cooling ∨ (w.state = .unavailable ∧ ¬ available) ∨
      ((w.state = .ready ∨ w.state = .pending) ∧ available) → judgeAvailable n s = s)) ∧
  (∀ (s : State) (t r : Nat) (st : RouteState) (e : TrainEvent),
    let those := fun (p : ShowRec → Bool) => (s.vu.shows.filter fun x => p x.2).map fun x => x.1
    let legIs := fun (w : ShowRec) => w.state == .running && ((w.cfg.legs[w.leg]?).getD {}).route == some r
    let mine := those fun w => w.cfg.train == some t
    let ended := match e with
      | .lost => mine.foldl (fun u n => abortShow n .lost u) s
      | .removed => mine.foldl (fun u n => abortShow n .removed u) s
      | _ => s
    vuTrainChange t e s = (mine.foldl (fun u n => judgeAvailable n u) ended).hand .judgeStart ∧
    vuPassedStop t s = (match (s.train? t).map fun a => a.driver with
      | some (.show n) => abortShow n .passedStop s
      | _ => s) ∧
    (s.currentOf t ≠ 0 → vuStepChange t s = s.setTrain t fun a => { a with departure := some s.now }) ∧
    vuRouteChange r st s = (those fun w => w.state == .running).foldl (fun u n => showRoute r st n u) s ∧
    vuRouteFail r s = (those legIs).foldl (fun u n => abortShow n .route u) s ∧
    (∀ n w cause, s.show? n = some w → vuRequestDropped n r cause s = if legIs w = true then (match cause with
      | .can => abortShow n .route s
      | .expiry => abortShow n .timeout s
      | _ => s) else s)) ∧
  (∀ (s : State) (n m r : Nat) (w : ShowRec) (st : RouteState), s.show? n = some w → w.cfg.train = some m →
    let leg := (w.cfg.legs[w.leg]?).getD {}
    let runs := fun (u : State) => (changeHolds m (fun a => { a with showWait := false }) (u.setShow n fun w =>
      { w with phase := .run, storePending := false, legOccupied := false })).setTrain m fun a => { a with demand := leg.step }
    let pending := fun (b : Bool) (u : State) => u.setShow n fun w => { w with storePending := b }
    let stores := fun (k : Nat) (u : State) =>
      let out := storeRequest k (.show n) (some w.legExpiry) u
      let isSet := (out.1.route? k).map (fun q => q.state) = some .set
      match out.2 with
      | .started => if isSet then runs out.1 else pending false out.1
      | .queued => pending false out.1
      | .refused .state _ => if isSet then runs out.1 else pending true out.1
      | .refused .full _ => pending true out.1
      | .refused _ _ => out.1
    let waits := (changeHolds m (fun a => { a with showWait := true }) (s.setShow n fun w =>
      { w with phase := .routeWait, legOccupied := false })).setTrain m fun a => { a with demand := 0 }
    let its := w.state = .running ∧ leg.route = some r
    showRoute r st n s =
      if its ∧ w.phase = .routeWait ∧ st = .set then runs s
      else if its ∧ w.phase = .run ∧ st = .occupied ∧ (s.route? r).bind (fun q => q.train) = some m then
        s.setShow n fun w => { w with legOccupied := true }
      else if its ∧ w.phase = .run ∧ st = .idle ∧ w.legOccupied = false then stores r waits
      else if w.state = .running ∧ w.phase = .routeWait ∧ w.storePending = true then (match leg.route with
        | some k => stores k s
        | none => s)
      else s) ∧
  (∀ (s : State) (n : Nat),
    (s.show? n = none → dwellOver n s = s) ∧
    (∀ w, s.show? n = some w →
      (w.state ≠ .running ∨ w.phase ≠ .dwell → dwellOver n s = s) ∧
      (w.state = .running → w.phase = .dwell →
        let u := s.setShow n fun w => { w with dwellTimer := none }
        let v := s.setShow n fun w => { w with
          phase := .turn, dwellTimer := none, legTimer := some (s.now + 4000000 * w.cfg.legTimeout) }
        dwellOver n s = match (w.cfg.legs[w.leg]?.getD {}).target with
          | none => if w.leg + 1 < w.cfg.legs.length then beginLeg n (w.leg + 1) u else completeShow n w u
          | some (k, e) => match requestMove k e none (.show n) v with
            | .error _ => abortShow n .turn v
            | .ok (t, some _) => t
            | .ok (t, none) => endTurn n w t)))

/-- The mimic panel's values (R144), the texts of the board lines (R145), and their judgement at a BOARD command and
every 100 ms (R146): a line whose text is not the one last acknowledged has its entry in the queue. The judgement is
spelled whole: the lines board by board (the model's choice, log 56), a line whose text is the one last acknowledged
not joining, entries that stand keeping their places, and new ones joining at the back; while the link is not IDLE the
queue is what it was with exactly the changed lines that were not in it added behind. A line whose source is a show
that is ABSENT is 32 spaces (R145). That the trains' steps read at a judgement are noted after a frame begun inside it
is composed is the model's choice (log 32). -/
def Obligations.PanelAndBoardLinesShowTheState : Prop :=
  (∀ s : State,
    (∀ x r, s.section? x = some r →
      s.mimicValue (.sectionOcc x) =
        (if r.occupied = true then (if s.holder x = none then .flash else .on) else .off) ∧
      s.mimicValue (.sectionLock x) = if r.lock = none then .off else .on) ∧
    (∀ p r pos, s.point? p = some r → s.mimicValue (.pointPos p pos) =
      if r.position = .normal ∨ r.position = .reverse then (if r.position = pos.position then .on else .off)
      else .flash) ∧
    (∀ g r, s.signal? g = some r → s.mimicValue (.signalProceed g) = if r.aspect = .stop then .off else .on) ∧
    (∀ k r, Table.find s.tu.roads k = some r → s.mimicValue (.road k) =
      if s.tu.state = .aligned then (if s.tu.faceA = some k ∨ s.tu.faceB = some k then .on else .off)
      else if (s.tu.state = .moving ∨ s.tu.state = .stopping) ∧ (s.tu.move.map fun m => m.road) = some k then .flash
      else .off) ∧
    (∀ n w, s.show? n = some w → s.mimicValue (.showLamp n) =
      if w.state = .ready then .on else if w.state = .pending ∨ w.state = .running then .flash else .off) ∧
    (∀ n, (s.section? n = none → s.mimicValue (.sectionOcc n) = .off ∧ s.mimicValue (.sectionLock n) = .off) ∧
      (∀ pos, s.point? n = none → s.mimicValue (.pointPos n pos) = .off) ∧
      (s.signal? n = none → s.mimicValue (.signalProceed n) = .off) ∧
      (Table.find s.tu.roads n = none → s.mimicValue (.road n) = .off) ∧
      (s.show? n = none → s.mimicValue (.showLamp n) = .off))) ∧
  (∀ s : State,
    (∀ src, (s.composeLine src).length = 32) ∧ s.composeLine .blank = List.replicate 32 ' ' ∧
    (∀ t, t.length ≤ 32 → s.composeLine (.text t) = t ++ List.replicate (32 - t.length) ' ') ∧
    (∀ n, (∀ t, s.train? n = some t → t.state = .unused) → s.composeLine (.train n) = List.replicate 32 ' ') ∧
    (∀ n t tag, s.train? n = some t → t.state ≠ .unused → t.cfg.tag = some tag → tag.length ≤ 6 →
      t.cfg.destination.length ≤ 15 →
      s.composeLine (.train n) = tag ++ List.replicate (7 - tag.length) ' ' ++ t.cfg.destination ++
        List.replicate (16 - t.cfg.destination.length) ' ' ++ padded 9 (s.statusWord t)) ∧
    (∀ t, s.statusWord t =
      if t.state = .unplaced then []
      else if t.state = .lost then "DELAYED".toList
      else if t.held = true then "HELD".toList
      else if t.current = 0 then (match (t.list.getLast?).bind fun e => s.platformOf e.sec with
        | some m => "PLATFORM".toList ++ digits m
        | none => "STANDING".toList)
      else if ((t.list.getLast?).bind fun e => s.platformOf e.sec) ≠ none ∧ t.current < t.stepRead then
        "ARRIVING".toList
      else if ∃ d, t.departure = some d ∧ s.now - d < 20000000 then "DEPARTING".toList
      else "RUNNING".toList) ∧
    (∀ n w, s.show? n = some w → s.composeLine (.show n) = padded 32 (match w.state with
      | .ready => "READY".toList
      | .pending | .running => "RUNNING".toList
      | .cooling => "NEXT IN ".toList ++ digits (match w.coolTimer with
          | none => 0
          | some d => (d - s.now + 3999999) / 4000000) ++ " S".toList
      | .unavailable => "NOT TODAY".toList))) ∧
  (∀ (s : State) (b l : Nat), s.Ready →
    let written := fun (src : LineSource) =>
      let u := s.setLine b l fun r => { r with source := src }
      let text := u.composeLine ((u.board b).line l).source
      let v := if ((u.board b).line l).acked = some text then u
        else chooseTransfer (if (b, l) ∈ u.vu.boardQueue then u
          else { u with vu := { u.vu with boardQueue := u.vu.boardQueue ++ [(b, l)] } })
      { v with tt := { v.tt with trains := v.tt.trains.map fun e => (e.1, { e.2 with stepRead := e.2.current }) } }
    let lineOk := 1 ≤ b ∧ b ≤ 4 ∧ 1 ≤ l ∧ l ≤ 4
    (∀ t, exec (.boardText b l t) s = .next (deliver (
      if lineOk ∧ t.length ≤ 32 then (written (.text t), .ok (.board b l)) else (s, .no .range none)))) ∧
    (∀ n, exec (.boardSource b l (.train n)) s = .next (deliver (
      if lineOk ∧ n < 32 then (written (.train n), .ok (.board b l)) else (s, .no .range none)))) ∧
    (∀ n, exec (.boardSource b l (.show n)) s = .next (deliver (
      if lineOk ∧ n < 8 then (written (.show n), .ok (.board b l)) else (s, .no .range none)))) ∧
    exec (.boardSource b l .blank) s = .next (deliver (
      if lineOk then (written .blank, .ok (.board b l)) else (s, .no .range none)))) ∧
  (∀ s : State, s.AtRest → ∃ t, exec .boardLineJudgement s = .next (arbitrate t) ∧
    t.now = max s.now s.vu.judgeDue ∧ t.vu.judgeDue = s.vu.judgeDue + 400000 ∧
    t.tt.trains = (s.tt.trains.map fun e => (e.1, { e.2 with stepRead := e.2.current })) ∧
    (∀ b l, 1 ≤ b → b ≤ 4 → 1 ≤ l → l ≤ 4 →
      ((s.board b).line l).acked ≠ some ({ s with now := max s.now s.vu.judgeDue }.composeLine ((s.board b).line l).source) →
      (b, l) ∈ t.vu.boardQueue)) ∧
  (∀ (s : State) (n : Nat), s.show? n = none → s.composeLine (.show n) = List.replicate 32 ' ') ∧
  (∀ s : State, s.AtRest →
    let judge := fun (u : State) (b l : Nat) =>
      if ((u.board b).line l).acked = some (u.composeLine ((u.board b).line l).source) then u
      else chooseTransfer (if (b, l) ∈ u.vu.boardQueue then u
        else { u with vu := { u.vu with boardQueue := u.vu.boardQueue ++ [(b, l)] } })
    let lines := [(1, 1), (1, 2), (1, 3), (1, 4), (2, 1), (2, 2), (2, 3), (2, 4), (3, 1), (3, 2), (3, 3), (3, 4), (4, 1),
      (4, 2), (4, 3), (4, 4)]
    let t := lines.foldl (fun u e => judge u e.1 e.2) { s with now := max s.now s.vu.judgeDue }
    exec .boardLineJudgement s = .next (arbitrate { t with
      tt := { t.tt with trains := t.tt.trains.map fun e => (e.1, { e.2 with stepRead := e.2.current }) }
      vu := { t.vu with judgeDue := t.vu.judgeDue + 400000 } }) ∧
    (s.vu.link ≠ .idle → t.vu.boardQueue = s.vu.boardQueue ++ lines.filter fun e =>
      e ∉ s.vu.boardQueue ∧ ((s.board e.1).line e.2).acked ≠
        some ({ s with now := max s.now s.vu.judgeDue }.composeLine ((s.board e.1).line e.2).source)))

/-- The board link (R147, R148, R157): the end of a frame, the reply frame of the board addressed, the reply timer,
the probe timer, every outcome of a line frame and of a probe, and what an idle link sends: the probe of the lowest
board due, else the oldest entry whose board is ONLINE and whose text is not acknowledged. That FRAME_SENT when no
frame is being sent, a reply or its timer when none is awaited, and the expiry of a stopped probe timer do nothing is
the model's choice (log 2). A line frame is STX, the board, the line, the 32 characters of its text and a check byte,
the sum of them all; a probe frame is STX, the board, 0 and its check byte (R147, R157); and BDIR is high exactly
while a frame is sent. -/
def Obligations.TheBoardLinkFollowsR147AndR148 : Prop :=
  (∀ s : State, s.AtRest →
    (∀ f, s.vu.link = .sending f → exec .frameSent s =
      .next (arbitrate { s with vu := { s.vu with link := .awaiting f (s.now + 80000) } })) ∧
    ((∀ f, s.vu.link ≠ .sending f) → exec .frameSent s = .next (arbitrate s)) ∧
    (∀ f due, s.vu.link = .awaiting f due →
      (∀ bytes, exec (.replyFrame bytes) s = .next (arbitrate (frameOutcome f (readReply f.board bytes) s))) ∧
      exec .replyTimerExpiry s = .next (arbitrate (frameOutcome f .nak { s with now := max s.now due }))) ∧
    ((∀ f due, s.vu.link ≠ .awaiting f due) →
      (∀ bytes, exec (.replyFrame bytes) s = .next (arbitrate s)) ∧ exec .replyTimerExpiry s = .next (arbitrate s)) ∧
    (∀ b d, 1 ≤ b → b ≤ 4 → (s.board b).probeTimer = some d → exec (.probeTimerExpiry b) s = .next (arbitrate
      ({ s with now := max s.now d }.setBoard b fun r => { r with probeTimer := none, probeDue := true }))) ∧
    (∀ b, b = 0 ∨ 4 < b ∨ (s.board b).probeTimer = none → exec (.probeTimerExpiry b) s = .next (arbitrate s))) ∧
  (∀ (b : Nat) (bytes : List Byte), 1 ≤ b → b ≤ 4 →
    (readReply b bytes = .ack ↔ bytes = [2, BitVec.ofNat 8 b, 6, BitVec.ofNat 8 (2 + b + 6)]) ∧
    (readReply b bytes = .busy ↔ bytes = [2, BitVec.ofNat 8 b, 17, BitVec.ofNat 8 (2 + b + 17)])) ∧
  (∀ (s : State) (b l : Nat) (t : Text) (again : Bool),
    let idle := fun (u : State) => { u with vu := { u.vu with link := .idle } }
    frameOutcome (.line b l t again) .ack s =
      idle ((s.setLine b l fun r => { r with acked := some t }).unqueueLine b l) ∧
    ((b, l) ∈ s.vu.boardQueue → frameOutcome (.line b l t again) .busy s =
      idle { s with vu := { s.vu with boardQueue := (s.vu.boardQueue.filter fun e => e != (b, l)) ++ [(b, l)] } }) ∧
    frameOutcome (.line b l t false) .nak s = { s with vu := { s.vu with link := .sending (.line b l t true) } } ∧
    frameOutcome (.line b l t true) .nak s = idle ((s.setBoard b fun r =>
      { r with online := false, probeTimer := some (s.now + 20000000) }).report (.board b false)) ∧
    (∀ a, a = Answer.ack ∨ a = .busy → ∃ u, frameOutcome (.probe b) a s = idle u ∧
      u.hl = s.hl.report (.board b true) ∧
      u.vu.boards = s.vu.boards.modify (b - 1) (fun r => { r with
        online := true, probeTimer := none, lines := r.lines.map fun l => { l with acked := none } }) ∧
      u.vu.boardQueue = s.vu.boardQueue ++ [(b, 1), (b, 2), (b, 3), (b, 4)].filter fun e => !s.vu.boardQueue.contains e) ∧
    frameOutcome (.probe b) .nak s =
      idle (s.setBoard b fun r => { r with probeTimer := some (s.now + 20000000) })) ∧
  (∀ s : State, s.vu.link = .idle →
    (∀ b, s.dueProbe = some b → chooseTransfer s =
      { s.setBoard b (fun r => { r with probeDue := false }) with
        vu := { (s.setBoard b (fun r => { r with probeDue := false })).vu with link := .sending (.probe b) } }) ∧
    (∀ b l t again, (chooseTransfer s).vu.link = .sending (.line b l t again) →
      s.dueProbe = none ∧ (b, l) ∈ s.vu.boardQueue ∧ (s.board b).online = true ∧ again = false ∧
      t = s.composeLine ((s.board b).line l).source ∧ ((s.board b).line l).acked ≠ some t)) ∧
  (∀ s : State, s.vu.link ≠ .idle → chooseTransfer s = s) ∧
  (∀ s : State,
    (∀ b, s.dueProbe = some b ↔ 1 ≤ b ∧ b ≤ 4 ∧ (s.board b).probeDue = true ∧
      ∀ a, 1 ≤ a → a < b → (s.board a).probeDue = false) ∧
    (s.dueProbe = none ↔ ∀ b, 1 ≤ b → b ≤ 4 → (s.board b).probeDue = false)) ∧
  (∀ s : State, s.vu.link = .idle → s.dueProbe = none →
    let text := fun (e : Nat × Nat) => s.composeLine ((s.board e.1).line e.2).source
    let sends := fun (e : Nat × Nat) => (s.board e.1).online = true ∧ ((s.board e.1).line e.2).acked ≠ some (text e)
    let shown := fun (e : Nat × Nat) => (s.board e.1).online && ((s.board e.1).line e.2).acked == some (text e)
    ((∀ e ∈ s.vu.boardQueue, ¬ sends e) → chooseTransfer s =
      { s with vu := { s.vu with boardQueue := s.vu.boardQueue.filter fun e => !shown e } }) ∧
    (∀ before e rest, s.vu.boardQueue = before ++ e :: rest → sends e → (∀ a ∈ before, ¬ sends a) → chooseTransfer s =
      { s with vu := { s.vu with
        link := .sending (.line e.1 e.2 (text e) false)
        boardQueue := s.vu.boardQueue.filter fun a => !(shown a && before.contains a) } })) ∧
  (∀ (b l : Nat) (t : Text) (again : Bool), 1 ≤ b → b ≤ 4 → 1 ≤ l → l ≤ 4 →
    (Frame.line b l t again).bytes = [2, BitVec.ofNat 8 b, BitVec.ofNat 8 l] ++
      (t.map fun c => BitVec.ofNat 8 c.toNat) ++ [BitVec.ofNat 8 (2 + b + l + (t.map fun c => c.toNat).sum)] ∧
    (t.length = 32 → (Frame.line b l t again).bytes.length = 36)) ∧
  (∀ b : Nat, 1 ≤ b → b ≤ 4 → (Frame.probe b).bytes = [2, BitVec.ofNat 8 b, 0, BitVec.ofNat 8 (2 + b)]) ∧
  (∀ s : State, s.bdir = true ↔ ∃ f, s.vu.link = .sending f)

/-! ## The field chain (chapter 2) -/

/-- The sequencer's rows outside a scan's end: CHAIN RESET and the entry to CH-RESET (R26), the end of the reset and
the words of an enumeration (R27), HALTED, its fault report, queued only when the fault is not the one last reported,
and its retry (R29), the scan timer and the capture (R28, R30), the flash phase (R25). The model's choices: a row
outside its sequencer state does nothing (log 2), and SCAN_TIMER_EXPIRY with the scan timer stopped starts the first
scan after an enumeration (log 20); a word of another length is read by its first cells (log 23), and the modules
found are 0 from the start of an enumeration (log 45). CH-RESET hands the inputs before the condition is DOWN (R26),
in chain order by the model's choice (log 48). A chain found as the layout has it makes the condition SETTLING, with
the report, hands it to its readers and changes nothing else but the sequencer (R27, R35). That a fault whose report
is not queued counts as the last reported is the model's choice (log 68). -/
def Obligations.TheSequencerFollowsR25ToR30 : Prop :=
  (∀ s : State, s.Ready → exec .chainReset s = .next (deliver (chainReset s, .ok .chainReset))) ∧
  (∀ s : State, let t := chainReset s
    t.fc.seq = .chReset ∧ t.fc.condition = .down ∧ t.fc.scanTimer = none ∧ t.fc.retryTimer = none ∧ t.fc.latched = [] ∧
    t.fc.seqDue = some (s.now + 8 * (40000 / s.fc.clock)) ∧
    t.fc.modules = (s.fc.modules.map fun e => (e.1, { type := e.2.type })) ∧ t.fc.terminals = s.fc.terminals ∧
    (∀ e ∈ t.fc.live, e.2.lastSample = none ∧ e.2.qualified = none ∧ e.2.clearStart = none) ∧
    (∀ k c, (k, c) ∈ s.fc.terminals → c.role.isSense = true → (t.termLive (termOfKey k)).handed = none) ∧
    (∀ q, t.pu.supply ≠ .pulsing q)) ∧
  (∀ (s : State) (f : ChainFault), let t := enterHalted f s
    t.fc.seq = .halted ∧ t.fc.condition = .down ∧ t.fc.lastFault = some f ∧ t.fc.latched = [] ∧
    t.fc.retryTimer = some (s.now + 4000000) ∧ t.fc.scanTimer = none ∧
    (∀ k c, (k, c) ∈ s.fc.terminals → c.role.isSense = true → (t.termLive (termOfKey k)).handed = none) ∧
    (∀ q, t.pu.supply ≠ .pulsing q)) ∧
  (∀ (s : State) (f : ChainFault),
    let loses := fun (u : State) (k : Nat) =>
      let t := termOfKey k
      let gone := u.setLive k fun l => { l with handed := none }
      workOut gone (ownerTakes t (u.terminal t).role (u.termLive t).handed none gone)
    let lose := fun (u : State) => ((u.fc.terminals.filter fun e => e.2.role.isSense).map fun e => e.1).foldl loses u
    let goDown := fun (r : Option Report) (u : State) =>
      let down := { u with fc := { u.fc with condition := .down } }
      workOut u ((match r with
        | some rep => down.report rep
        | none => down).hand .conditionChange)
    let clears := fun (u : State) => workOut u (endPulse u)
    let began := { s with fc := { s.fc with
      modules := s.fc.modules.map fun e => (e.1, { type := e.2.type })
      live := s.fc.live.map fun e => (e.1, { handed := e.2.handed })
      seq := .chReset, clockInForce := s.fc.clock, seqDue := some (s.now + 8 * (40000 / s.fc.clock))
      scanTimer := none, scanExpired := false, retryTimer := none, latched := [] } }
    let stopped := { s with fc := { s.fc with
      lastFault := some f, seq := .halted, seqDue := none, scanTimer := none, scanExpired := false, latched := []
      retryTimer := some (s.now + 4000000) } }
    chainReset s = clears (if s.fc.condition = .down then lose began
      else goDown (some (.chainCondition .down)) (lose began)) ∧
    enterHalted f s =
      lose (clears (goDown (if s.fc.lastFault = some f then none else some (.chainFault f)) stopped))) ∧
  (∀ cells : List Bool,
    (readWord cells = .marker ↔ cells.take 16 =
      [true, true, true, true, false, false, false, false, true, false, true, false, false, true, true, false]) ∧
    (∀ t, readWord cells = .identity t ↔ cells = (List.range 40).map (fun i => i % 2 == 0) ++ (match t with
      | .general => [true, true, false, false, false, false, true, true]
      | .detector => [true, true, false, false, true, true, false, false]
      | .driver => [true, true, false, false, true, true, true, true]))) ∧
  (∀ s : State, s.AtRest →
    (s.fc.seq = .chReset → exec .chResetEnd s = .next (arbitrate (
      let t := s.expire s.fc.seqDue
      { t with fc := { t.fc with seq := .enumerate, seqDue := none, enumCount := 0, found := 0 } }))) ∧
    (s.fc.seq ≠ .chReset → exec .chResetEnd s = .next (arbitrate s)) ∧
    (∀ cells, s.fc.seq ≠ .enumerate → exec (.enumerationWord cells) s = .next (arbitrate s)) ∧
    (∀ cells, s.fc.seq = .enumerate →
      let k := s.fc.enumCount
      let l := s.chainLength
      let typeOf := fun (m : Nat) => (Table.find s.fc.modules m).map fun r => r.type
      let place := if k < l then l - 1 - k else l
      let more := { s with fc := { s.fc with found := s.fc.found + 1 } }
      (readWord cells = .neither ∨ (readWord cells = .marker ∧ k < l) →
        exec (.enumerationWord cells) s = .next (arbitrate (enterHalted (.enum place) s))) ∧
      (∀ t, readWord cells = .identity t → 40 ≤ s.fc.found →
        exec (.enumerationWord cells) s = .next (arbitrate (enterHalted (.enum place) s))) ∧
      (∀ t, readWord cells = .identity t → s.fc.found < 40 → l ≤ k ∨ typeOf (l - 1 - k) ≠ some t →
        exec (.enumerationWord cells) s = .next (arbitrate (enterHalted (.enum place) more))) ∧
      (∀ t, readWord cells = .identity t → s.fc.found < 40 → k < l → typeOf (l - 1 - k) = some t →
        exec (.enumerationWord cells) s = .next (arbitrate { more with fc := { more.fc with enumCount := k + 1 } })) ∧
      (readWord cells = .marker → l ≤ k → ∃ t, exec (.enumerationWord cells) s = .next (arbitrate t) ∧
        t.fc.seq = .idle ∧ t.fc.scanExpired = true ∧ t.fc.condition = .settling ∧ t.fc.lastFault = none ∧
        (let idle : State := { s with fc := { s.fc with
           seq := .idle, seqDue := none, scanTimer := none, scanExpired := true, lastFault := none } }
         t = workOut idle (({ idle with fc := { idle.fc with condition := .settling } }.report
           (.chainCondition .settling)).hand .conditionChange)))) ∧
    (∀ d, s.fc.seq = .halted → s.fc.retryTimer = some d →
      exec .retryTimerExpiry s = .next (arbitrate (chainReset { s with now := max s.now d }))) ∧
    (s.fc.seq ≠ .halted ∨ s.fc.retryTimer = none → exec .retryTimerExpiry s = .next (arbitrate s)) ∧
    (let captured := fun (t : State) => { t with fc := { t.fc with
        seq := .capture, seqDue := none, clockInForce := t.fc.clock, periodInForce := t.fc.period
        scanTimer := some (t.now + 4000 * t.fc.period), scanExpired := false } }
     (∀ d, s.fc.scanTimer = some d →
      let t := { s with now := max s.now d, fc := { s.fc with scanTimer := none, scanExpired := true } }
      exec .scanTimerExpiry s = .next (arbitrate (if s.fc.seq = .idle then captured t else t))) ∧
     (s.fc.scanTimer = none → exec .scanTimerExpiry s = .next (arbitrate (
      if s.fc.seq = .idle ∧ s.fc.scanExpired = true then captured s else s)))) ∧
    (s.fc.seq = .capture → exec .captureDone s = .next (arbitrate { s with fc := { s.fc with
      seq := .shift, composed := s.fc.composed + 1, image := s.composeImage
      seqDue := some (s.now + (48 * s.chainLength + 16) * (40000 / s.fc.clockInForce)) } })) ∧
    (s.fc.seq ≠ .capture → exec .captureDone s = .next (arbitrate s)) ∧
    exec .flashPhaseToggle s = .next (arbitrate { s with
      now := max s.now s.fc.flashDue
      fc := { s.fc with flashLit := !s.fc.flashLit, flashDue := s.fc.flashDue + 2000000 } }))

/-- What the chain sends (R24, R25, R27, R46, R157): the image composed holds the three cells of every terminal of the
expected chain, enabled by its module's health; the enable of a FAULTY module's terminal is off, a sensed terminal is
never driven, a lamp is lit under LAMP-TEST, and a coil's value is ON only for the pulse in progress; and COUT carries
the tail and the image in SHIFT, the tail marker and off cells in ENUMERATE. In scan mode NORMAL a SIGNAL-LAMP
terminal shows its lamp's value when its signal names the terminal for a lamp of its head, a SHOW-LAMP terminal its
show's when the show names it, and any other MIMIC terminal the state it mirrors; the terminal of an owner that is
ABSENT or does not name it is OFF (R22, R86, R144). -/
def Obligations.ImagesEnableOnlyWhatTheyMay : Prop :=
  (∀ s : State, s.composeImage.length = s.chainLength ∧
    (∀ m t, m < s.chainLength → t < 16 → (s.composeImage[m]?).bind (fun i => i[t]?) = some (s.cellsOf (16 * m + t)
      ((Table.find s.fc.modules m).map (fun r => r.health) == some .healthy)) ∧ termOfKey (16 * m + t) = ⟨m, t⟩) ∧
    (∀ k h, (s.cellsOf k h).2.1 = (s.terminal (termOfKey k)).pullUp ∧
      ((s.terminal (termOfKey k)).role.isDrive = false →
        (s.cellsOf k h).1 = ((s.terminal (termOfKey k)).active == .low)))) ∧
  (∀ c : Chain,
    (c.seq = .shift → c.cout = Config.tailPattern ++
      (c.image.flatMap fun i => i.flatMap fun t => [t.1, t.2.1, t.2.2]).reverse) ∧
    (c.seq = .enumerate → c.cout = (if c.enumCount = 0 then Config.tailPattern ++ List.replicate 32 false
      else List.replicate 48 false)) ∧
    (c.seq ≠ .shift → c.seq ≠ .enumerate → c.cout = [])) ∧
  (∀ (s : State) (k : Nat),
     (s.cellsOf k false).2.2 = false ∧
     (∀ h, (s.terminal (termOfKey k)).role.isSense = true → (s.cellsOf k h).2.2 = false) ∧
     (∀ h, (s.terminal (termOfKey k)).role = .off →
       (s.cellsOf k h).2.2 = (h && (s.terminal (termOfKey k)).direction == .drive)) ∧
     (∀ h, (s.terminal (termOfKey k)).role.isDrive = true → (s.cellsOf k h).2.2 = h ∧
       (s.cellsOf k h).1 = (((s.terminal (termOfKey k)).active == .high) ==
         (match s.outputValue (termOfKey k) (s.terminal (termOfKey k)).role with
           | .on => true
           | .off => false
           | .flash => s.fc.flashLit))) ∧
     (∀ t g lamp src, s.fc.modeInForce = .lampTest → s.outputValue t (.signalLamp g lamp) = .on ∧
       s.outputValue t (.mimic src) = .on) ∧
     (∀ t p pos, s.outputValue t (.coil p pos) = .on ↔
       (∃ r, s.point? p = some r ∧ (match pos with | .n => r.cfg.coilN | .r => r.cfg.coilR) = some t) ∧
       ∃ q, s.pu.supply = .pulsing q ∧ q.point = p ∧ q.pos = pos ∧ q.offAt = none) ∧
     (∀ t a, s.outputValue t (.auxOut a) = if (s.hl.auxOut[a]?).getD false = true then .on else .off)) ∧
  ∀ (s : State) (t : TermId), s.fc.modeInForce = .normal →
    (∀ g lamp, s.outputValue t (.signalLamp g lamp) = match s.signal? g with
      | none => .off
      | some r => if lamp ∈ r.cfg.lamps ∧ r.cfg.lampTerminal lamp = some t then lampValue r.cfg r.aspect lamp else .off) ∧
    (∀ src, (∀ n, src ≠ .showLamp n) → s.outputValue t (.mimic src) = s.mimicValue src) ∧
    (∀ n, s.outputValue t (.mimic (.showLamp n)) = match s.show? n with
      | none => .off
      | some w => if w.cfg.lamp = some t then s.mimicValue (.showLamp n) else .off)

/-- The end of a scan (R28): the tail check, the echo check (R31), the qualification of every sensed terminal, a
detector's by its clearance delay (R33) and every other's by agreement (R32), and the hand-over of a changed value to
its owner while HEALTHY (R34), with what each owner then does; the end of settling, which hands over every value in
chain order (R36); and the UPDATE, at which the scan mode may change (R38). With them, the echo's reference, all off
after a chain reset, and the cells that each module returns (R31); the module that becomes FAULTY at its third
mismatch in a row or HEALTHY at its third match, with its report and what its inputs' owners take; and the inputs that
settling waits for, the lowest of them first (R36). That the inputs of a module take their fault values in chain order
is the model's choice (log 48). The model's choices: SHIFT_END outside SHIFT and UPDATE_COMPLETE outside UPDATE do
nothing (log 2), an exchange of another length has its tail where the expected chain ends (log 23), and a detector
whose section is ABSENT has the default clearance delay (log 44). -/
def Obligations.ScansEndByR28AndR31ToR38 : Prop :=
  (∀ (s : State) (cells : List Bool), s.AtRest →
    (s.fc.seq ≠ .shift → exec (.shiftEnd cells) s = .next (arbitrate s)) ∧
    (s.fc.seq = .shift →
      let n := s.chainLength
      let ended := s.expire s.fc.seqDue
      (cells.drop (48 * n) ≠ Config.tailPattern →
        exec (.shiftEnd cells) s = .next (arbitrate (enterHalted .tail ended))) ∧
      (cells.drop (48 * n) = Config.tailPattern →
        let echoed := foldState (echoModule n cells) (List.range n) ended
        let kept := (List.range n).filter fun m => ended.moduleHealthy m && echoed.moduleHealthy m
        let sampled := foldState (qualifyTerminal n cells)
          (kept.flatMap fun m => (List.range 16).map fun t => 16 * m + t) echoed
        let judged := if sampled.fc.condition = .settling ∧ sampled.awaited = none then settlingComplete sampled
          else sampled
        exec (.shiftEnd cells) s = .next (arbitrate { judged with fc := { judged.fc with
          seq := .update, seqDue := none } })))) ∧
  (∀ (s : State) (l m : Nat) (cells : List Bool) (r : ModuleRec), Table.find s.fc.modules m = some r →
    let same := pullEnable (returnedCells l m cells) = s.echoReference m
    let new := (Table.find (echoModule l cells m s).fc.modules m)
    (r.health = .healthy → same → new = some { r with mismatches := 0 }) ∧
    (r.health = .healthy → ¬ same → r.mismatches < 2 → new = some { r with mismatches := r.mismatches + 1 }) ∧
    (r.health = .healthy → ¬ same → 2 ≤ r.mismatches →
      new = some { type := r.type, health := .faulty, mismatches := 0, matched := 0 } ∧
      ∀ k ∈ s.inputsOf m, ((echoModule l cells m s).termLive (termOfKey k)).handed = none ∧
        ((echoModule l cells m s).termLive (termOfKey k)).qualified = none) ∧
    (r.health = .faulty → ¬ same → new = some { r with matched := 0 }) ∧
    (r.health = .faulty → same → r.matched < 2 → new = some { r with matched := r.matched + 1 }) ∧
    (r.health = .faulty → same → 2 ≤ r.matched →
      new = some { type := r.type, health := .healthy, mismatches := 0, matched := 0 })) ∧
  (∀ (l : TerminalLive) (v : Bool), qualifyAgree l v =
    { l with lastSample := some v, qualified := if l.lastSample = some v then some v else l.qualified }) ∧
  (∀ (l : TerminalLive) (now delay : Nat),
    qualifyDetector now delay l true = { l with
      lastSample := some true, clearStart := none
      qualified := if l.lastSample = some true then some true else l.qualified } ∧
    (l.lastSample ≠ some false → qualifyDetector now delay l false = { l with lastSample := some false }) ∧
    (l.lastSample = some false → l.qualified = some false → qualifyDetector now delay l false = l) ∧
    (l.lastSample = some false → l.qualified ≠ some false →
      qualifyDetector now delay l false =
        if delay ≤ now - l.clearStart.getD now then { l with qualified := some false, clearStart := none }
        else { l with clearStart := some (l.clearStart.getD now) })) ∧
  (∀ (s : State) (n k : Nat) (cells : List Bool),
    let t := termOfKey k
    let c := s.terminal t
    let l := s.termLive t
    let cell := ((returnedCells n (k / 16) cells)[3 * (k % 16)]?).getD false
    let active := cell == (c.active == .high)
    let judged := match c.role with
      | .detect x => qualifyDetector s.now (4000 * ((s.section? x).map fun r => r.cfg.clearDelay).getD 300) l active
      | _ => qualifyAgree l active
    let sampled := s.setLive k fun _ => judged
    let handed := sampled.setLive k fun a => { a with handed := judged.qualified }
    qualifyTerminal n cells k s =
      if c.role.isSense = true ∨ (c.role = .off ∧ c.direction = .sense) then
        if judged.qualified ≠ l.qualified ∧ s.fc.condition = .healthy ∧ c.role.isSense = true
          then workOut handed (ownerTakes t c.role l.handed judged.qualified handed) else sampled
      else s) ∧
  (∀ (s : State) (t : TermId) (was v : Option Bool),
    (∀ x, ownerTakes t (.detect x) was v s = refreshSection x s) ∧
    (∀ p pos, ownerTakes t (.pointDet p pos) was v s = refreshPoint p s) ∧
    (∀ n, ownerTakes t (.button n) was v s =
      if (s.show? n).any (fun w => w.cfg.button == some t) = true ∧ was ≠ some true ∧ v = some true then pressShow n s else s) ∧
    ownerTakes t .stopButton was v s = (if v = some false then s else activateStop (.button t) s) ∧
    (∀ a, ownerTakes t (.auxIn a) was v s = match v with
      | none => s
      | some b => if (s.hl.auxIn[a]?).getD false = b then s
          else { s with hl := { s.hl with auxIn := s.hl.auxIn.set a b } }.report (.aux a b))) ∧
  (∀ (s : State) (x : Nat) (r : SectionRec), s.section? x = some r →
    let occ := match r.cfg.detector with
      | none => false
      | some t => !((s.terminal t).role == .detect x && (s.termLive t).handed == some false)
    refreshSection x s = if r.occupied = occ then s
      else ((s.setSection x fun q => { q with occupied := occ }).report (.sec x occ)).hand (.occupancy x occ)) ∧
  (∀ s : State,
    let healthy := workOut s (({ s with fc := { s.fc with condition := .healthy } }.report
      (.chainCondition .healthy)).hand .conditionChange)
    let held := fun (u : State) (t : TermId) => ((u.termLive t).handed).getD (match (u.terminal t).role with
      | .detect _ | .stopButton => true
      | .auxIn a => (u.hl.auxIn[a]?).getD false
      | _ => false)
    let visit := fun (u : State) (k : Nat) =>
      let t := termOfKey k
      match (u.termLive t).qualified with
      | none => u
      | some v =>
        let handed := u.setLive k fun l => { l with handed := some v }
        if held u t = v then handed
        else workOut handed (ownerTakes t (u.terminal t).role (u.termLive t).handed (some v) handed)
    let visited := ((s.fc.terminals.filter fun e => e.2.role.isSense).map fun e => e.1).foldl visit healthy
    settlingComplete s = workOut visited (visited.hand .resumption) ∧
    (settlingComplete s).fc.condition = .healthy ∧
    (∀ e ∈ s.fc.terminals, e.2.role.isSense = true →
      ((settlingComplete s).termLive (termOfKey e.1)).handed =
        ((s.termLive (termOfKey e.1)).qualified).or (s.termLive (termOfKey e.1)).handed)) ∧
  (∀ s : State, s.AtRest →
    (s.fc.seq ≠ .update → exec .updateComplete s = .next (arbitrate s)) ∧
    (s.fc.seq = .update →
      let latched := { s with fc := { s.fc with latched := s.fc.image } }
      let counted := workOut latched (pointsUpdate s.fc.composed latched)
      let changed := if s.fc.requestedAt < s.fc.composed ∧ s.fc.modeInForce ≠ s.fc.modeRequested
        then { counted with fc := { counted.fc with modeInForce := s.fc.modeRequested } }.report
          (.chainMode s.fc.modeRequested) else counted
      exec .updateComplete s = .next (arbitrate { changed with fc :=
        if s.fc.scanExpired = true then { changed.fc with
          seq := .capture, seqDue := none, clockInForce := s.fc.clock, periodInForce := s.fc.period
          scanTimer := some (s.now + 4000 * s.fc.period), scanExpired := false }
        else { changed.fc with seq := .idle, seqDue := none } }))) ∧
  (∀ s : State, s.tablesWf = true →
    let counted := fun (e : Nat × TerminalCfg) => e.2.role.isSense = true ∧ e.1 / 16 < s.chainLength ∧
      (Table.find s.fc.modules (e.1 / 16)).map (fun r => r.health) = some .healthy ∧ (match e.2.role with
        | .detect x => s.section? x ≠ none
        | .pointDet p _ => s.point? p ≠ none
        | .button n => s.show? n ≠ none
        | _ => True)
    let waits := fun (e : Nat × TerminalCfg) => counted e ∧ (s.termLive (termOfKey e.1)).qualified = none
    (s.awaited = none ↔ ∀ e ∈ s.fc.terminals, ¬ waits e) ∧
    (∀ before e rest, s.fc.terminals = before ++ e :: rest → (∀ a ∈ before, ¬ waits a) → waits e →
      s.awaited = some e.1)) ∧
  (∀ (s : State) (m : Nat),
    (∀ i, s.fc.latched[m]? = some i → s.echoReference m = i.map fun c => (c.2.1, c.2.2)) ∧
    (s.fc.latched[m]? = none → s.echoReference m = List.replicate 16 (false, false))) ∧
  (∀ (l m p : Nat) (cells : List Bool), m < l → p < 48 → 48 * l ≤ cells.length →
    (returnedCells l m cells)[p]? = cells[48 * (l - 1 - m) + (47 - p)]?) ∧
  (∀ value pull enable rest, pullEnable (value :: pull :: enable :: rest) = (pull, enable) :: pullEnable rest) ∧
  (∀ (s : State) (l m : Nat) (cells : List Bool) (r : ModuleRec), Table.find s.fc.modules m = some r →
    let same := pullEnable (returnedCells l m cells) = s.echoReference m
    let written := fun (h : Health) => { s with fc := { s.fc with
      modules := Table.update s.fc.modules m fun a => { type := a.type, health := h } } }.report (.chainModule m h)
    let loses := fun (u : State) (k : Nat) =>
      let t := termOfKey k
      let gone := u.setLive k fun _ => {}
      workOut gone (ownerTakes t (u.terminal t).role (u.termLive t).handed none gone)
    let lost := ((s.fc.terminals.filter fun e => e.2.role.isSense && e.1 / 16 == m).map fun e => e.1).foldl loses
      (written .faulty)
    (r.health = .healthy → ¬ same → 2 ≤ r.mismatches → echoModule l cells m s = { lost with fc := { lost.fc with
      live := lost.fc.live.map fun e => if e.1 / 16 = m then (e.1, { handed := e.2.handed }) else e } }) ∧
    (r.health = .faulty → same → 2 ≤ r.matched → echoModule l cells m s = written .healthy))

/-! ## Emergency stop, the store and start-up (chapter 11) -/

/-- ESTOP, RESUME and the stop loop (R158, R159): a stop that becomes active floats every channel and brings every
ACTIVE train's step to 0 at once, and is handed to every block, which empties the throw queue, fails every route in
SETTING, sets every demand to 0 and aborts every show; it ends only by RESUME, with the loop CLOSED and no button
pressed, and, from rest, stays ACTIVE over every command that is not a RESUME, a start-up or a loss of power. The
throw queue's entries are dropped oldest first with cause STOP, each point UNKNOWN with no commanded position and at
rest, reported and handed on, and the pulse in progress is cut short (R50); that a point whose own pulse runs stays
PULSING until it ends is the model's choice (log 38). The order of the blocks in the agenda is the model's choice (log
5); that a STOPLOOP_CHANGE to the value the loop has does nothing is its choice (log 2). -/
def Obligations.EmergencyStopStopsEveryBlock : Prop :=
  (∀ s : State, s.Ready →
    exec .estop s = .next (deliver (workOut s (activateStop .host s), .ok .estop)) ∧
    (s.ss.stop = false → exec .resume s = .next (deliver (workOut s s, .ok .resume))) ∧
    (s.ss.stop = true → s.ss.loop = .opened →
      exec .resume s = .next (deliver (workOut s s, .no .state (some .loop)))) ∧
    (∀ t, s.ss.stop = true → s.ss.loop = .closed → s.pressedButton = some t →
      exec .resume s = .next (deliver (workOut s s, .no .state (some (.terminal t))))) ∧
    (s.ss.stop = true → s.ss.loop = .closed → s.pressedButton = none → s.FloatsByR109 →
      exec .resume s = .next (deliver (workOut s ({ s with
        ss := { s.ss with stop := false }
        hl := s.hl.report .sysResumed
        dg := { s.dg with channels := s.dg.channels.map fun (ch : Channel) =>
          if ch.force = Force.float ∨ (s.mode = Mode.config ∧ ch.force = Force.none) then ch else { ch with shadow := 0 } } }.handAll
            [.reexamine, .judgeStart]), .ok .resume)))) ∧
  (∀ (s : State) (v : LoopValue), s.AtRest →
    (s.ss.loop = v → exec (.stoploopChange v) s = .next (arbitrate (workOut s s))) ∧
    (s.ss.loop ≠ v → exec (.stoploopChange v) s = .next (arbitrate (workOut s (
      let t := { s with ss := { s.ss with loop := v } }
      if v = .opened then activateStop .loop t else t))))) ∧
  (∀ (s : State) (c : StopCause),
    (s.ss.stop = true → activateStop c s = s) ∧
    (s.ss.stop = false →
      let t := activateStop c s
      t.ss = { s.ss with stop := true } ∧ t.hl = s.hl.report (.sysEstop c) ∧
      (∀ ch ∈ t.dg.channels, ch.output = .float) ∧ t.dg.replacement = [] ∧ t.dg.fallen = [] ∧
      t.tt.trains = (s.tt.trains.map fun e =>
        (e.1, if e.2.state = .active then { e.2 with current := 0 } else e.2)) ∧
      ∃ steps, t.agenda = s.agenda ++ steps ++ [.stopTracker, .stopPoints, .stopRoutes, .stopTurntable, .stopShows] ∧
        (s.tablesWf = true → ∀ n r, s.train? n = some r → r.state = .active → r.current ≠ 0 →
          Notice.stepChange n ∈ steps))) ∧
  (∀ s : State,
    (∀ x ∈ (handle .stopTracker s).tt.trains, x.2.demand = 0) ∧
    (handle .stopPoints s).pu.queue = [] ∧
    (∀ q, (handle .stopPoints s).pu.supply = .pulsing q → q.offAt ≠ none) ∧
    (∀ x ∈ (handle .stopRoutes s).ix.routes, s.tablesWf = true → x.2.state ≠ .setting) ∧
    handle .stopTurntable s = turntableStop s ∧
    (∀ x ∈ (handle .stopShows s).vu.shows, s.tablesWf = true → x.2.state ≠ .running)) ∧
  (∀ s : State, s.pressedButton = none ↔ ∀ k c, (k, c) ∈ s.fc.terminals → c.role = .stopButton →
    (s.termLive (termOfKey k)).handed = some false) ∧
  (∀ (c : Instr) (s t : State), s.AtRest → s.ss.stop = true → exec c s = .next t →
    c ≠ .resume → (∀ l, c ≠ .powerOn l) → (∀ l, c ≠ .startUpSequence l) → c ≠ .lossOfPower →
    (c = .lineSent → s.hl.tx ≠ some (.reply (.ok .reset))) →
    BufferEntry.command .resume ∉ s.hl.buffer → (∀ l, BufferEntry.line l ∈ s.hl.buffer → parseLine l ≠ .ok .resume) →
    (∀ a, s.hl.line = some a → parseLine a.chars ≠ .ok .resume) → t.ss.stop = true) ∧
  (∀ s : State,
    let drop := fun (u : State) (e : Nat × PointPos) =>
      (((({ u with pu := { u.pu with queue := u.pu.queue.filter fun a => a.1 != e.1 } }).setPoint e.1 fun r => { r with
        position := .unknown, commanded := none, phase := if r.phase = Phase.pulsingQueued then .pulsing else .atRest }).report
          (.pointDropped e.1 .stop)).hand (.pointChange e.1 .dropped)).hand .reexamine
    let dropped := s.pu.queue.foldl drop s
    handle .stopPoints s = match dropped.pu.supply with
      | .pulsing q => if q.offAt = none then { dropped with pu := { dropped.pu with
          supply := .pulsing { q with offAt := some dropped.fc.composed } } } else dropped
      | _ => dropped)

/-- SAVE and its end (R160, R161): the bank written is never that of the current image, is bank 0 when there is none, and
no step makes it the current image's; the
current image is the current one until the SAVE ends well, is current again after a SAVE that fails or that a loss of
power cuts short, and is replaced by the copy, one number on, by a SAVE that ends well. That a SAVE_END with no SAVE in
progress does nothing is the model's choice (log 2). -/
def Obligations.TheCurrentImageOutlivesASave : Prop :=
  (∀ s t : State, s.SaveSparesCurrent → step s = .next t → t.SaveSparesCurrent) ∧
  (∀ s : State, s.Ready → (s.ss.save ≠ none → exec .save s = .next (deliver (s, .no .busy none))) ∧
    (s.ss.save = none → ∃ t j, exec .save s = .next (deliver (t, .ok .save)) ∧
      { t with ss := s.ss } = s ∧ t.ss.save = some j ∧ j.copy = s.copyImage ∧
      j.seq = s.ss.nextSeq ∧
      t.ss.current = s.ss.current ∧ (∀ b i q, s.ss.current = some (b, i, q) → j.bank ≠ b) ∧
      (s.ss.current = none → j.bank = 0) ∧
      (if j.bank = 0 then t.ss.bank0 = .blank ∧ t.ss.bank1 = s.ss.bank1
        else t.ss.bank1 = .blank ∧ t.ss.bank0 = s.ss.bank0))) ∧
  (∀ (s : State) (good : Bool), s.AtRest →
    (s.ss.save = none → exec (.saveEnd good) s = .next (arbitrate s)) ∧
    (∀ j, s.ss.save = some j → exec (.saveEnd good) s = .next (arbitrate ({ s with ss := { s.ss with
      bank0 := if j.bank = 0 then .image j.copy j.seq good else s.ss.bank0
      bank1 := if j.bank = 0 then s.ss.bank1 else .image j.copy j.seq good
      save := none } }.report (if good = true then .sysSaved else .sysSaveFailed))))) ∧
  (∀ (b : StopStore) (j : SaveJob) (good : Bool), b.save = some j → (j.bank = 0 ∨ j.bank = 1) →
    (if j.bank = 0 then b.bank0 = .blank else b.bank1 = .blank) →
    j.seq = b.nextSeq → (∀ c i q, b.current = some (c, i, q) → q < 65536) →
    let ended := { b.setBank j.bank (.image j.copy j.seq good) with save := none }
    ended.current = (if good = true then some (j.bank, j.copy, j.seq) else b.current) ∧
    b.abandon.current = b.current ∧ b.abandon.save = none)

/-- POWER_ON, START_UP_SEQUENCE and LOSS_OF_POWER (R161 to R163): with no current image everything starts at the
values after power-on and the store is reported EMPTY, or BAD when a bank is not BLANK; with a current image the
layout is the image's; the stop is ACTIVE exactly when the loop is OPEN or a terminal is a STOP-BUTTON; autorun takes
the part to RUN exactly when the image passes validation, with the stop ACTIVE or not; the reports are those of the
sequence, in its order; power-on takes the speed from the image or 57600 and a RESET keeps it; a loss keeps the store
alone. And the whole state after a start-up from a current image: every record and setting of the image, and every
live field of R163 at its value after power-on, the clock's own times counted from now. The model's choices: every
start-up leaves no break standing (log 33), POWER_ON on a powered part, and the clock, the queue and the free value's
counter kept (log 21); every other field at its value of power-on after a loss (log 22). -/
def Obligations.StartUpFollowsR161ToR163 : Prop :=
  (∀ s : State, s.ss.bank0 = .blank → s.ss.bank1 = .blank → s.ss.save = none →
    let fresh := { State.reset with
      pending := s.pending, now := s.now, freeCount := s.freeCount
      fc := { State.reset.fc with seqDue := some (s.now + 64), flashDue := s.now + 2000000 }
      pu := { State.reset.pu with supply := .recharging (s.now + 1600000) }
      dg := { State.reset.dg with zeroAt := s.now }
      vu := { State.reset.vu with judgeDue := s.now + 400000 } }
    exec (.powerOn .closed) s = .next fresh ∧
    (s.powered = true → exec (.startUpSequence .closed) s = .next { fresh with hl := { fresh.hl with
      speed := s.hl.speed, reports := [.sysStoreEmpty, .sysStart .reset] } }) ∧
    ∃ t, exec (.powerOn .opened) s = .next t ∧ t.ss.stop = true ∧ t.ss.loop = .opened) ∧
  (∀ (s : State) (b q : Nat) (i : Image), s.ss.abandon.current = some (b, i, q) →
    i.boardSources.length = 4 → (∀ l ∈ i.boardSources, l.length = 4) →
    let quiet := ∀ e ∈ i.terminals, e.2.role ≠ .stopButton
    (∀ (l : LoopValue) (row : Instr) (cause : StartCause) (speed : Nat),
      (row = .powerOn l ∧ cause = .power ∧ speed = i.speed) ∨
        (row = .startUpSequence l ∧ cause = .reset ∧ speed = s.hl.speed ∧ s.powered = true) →
      let button := i.terminals.find? fun e => e.2.role == .stopButton
      let stops := match l, button with
        | .opened, _ => [Report.sysEstop .loop]
        | .closed, some e => [.sysEstop (.button (termOfKey e.1))]
        | .closed, none => []
      let runs := if i.autorun = false then [] else match (loadImage i {}).validate with
        | none => [Report.sysMode .run]
        | some (o, c) => [.sysInvalid o c]
      ∃ t, exec row s = .next t ∧ t.copyImage = { i with speed := speed } ∧ t.hl.speed = speed ∧ t.ss.loop = l ∧
        (t.ss.stop = true ↔ l = .opened ∨ ¬ quiet) ∧
        (t.mode = .run ↔ i.autorun = true ∧ (loadImage i {}).validate = none) ∧
        t.hl.reports = stops ++ runs ++ [.sysStart cause])) ∧
  (∀ s : State, s.ss.abandon.current = none →
    let store := { s.ss.abandon with save := none, stop := false, loop := .closed, autorun := false }
    let fresh := { State.reset with
      pending := s.pending, now := s.now, freeCount := s.freeCount, ss := store
      fc := { State.reset.fc with seqDue := some (s.now + 64), flashDue := s.now + 2000000 }
      pu := { State.reset.pu with supply := .recharging (s.now + 1600000) }
      dg := { State.reset.dg with zeroAt := s.now }
      vu := { State.reset.vu with judgeDue := s.now + 400000 } }
    let said := if store.bank0 = .blank ∧ store.bank1 = .blank then Report.sysStoreEmpty else .sysStoreBad
    exec (.powerOn .closed) s = .next { fresh with hl := { fresh.hl with reports := [said, .sysStart .power] } } ∧
    (s.powered = true → exec (.startUpSequence .closed) s = .next { fresh with hl := { fresh.hl with
      speed := s.hl.speed, reports := [said, .sysStart .reset] } }) ∧
    ∃ t, exec (.powerOn .opened) s = .next t ∧ t.ss.stop = true ∧ t.hl.reports = [said, .sysEstop .loop, .sysStart .power]) ∧
  (∀ s : State, exec .lossOfPower s = .next {
    powered := false, pending := s.pending, now := s.now, freeCount := s.freeCount
    ss := { bank0 := s.ss.abandon.bank0, bank1 := s.ss.abandon.bank1 } })
 ∧
  (∀ (s : State) (b q : Nat) (i : Image), s.ss.abandon.current = some (b, i, q) →
    i.boardSources.length = 4 → (∀ l ∈ i.boardSources, l.length = 4) →
    ∀ (l : LoopValue) (row : Instr) (cause : StartCause) (speed : Nat),
      (row = .powerOn l ∧ cause = .power ∧ speed = i.speed) ∨
        (row = .startUpSequence l ∧ cause = .reset ∧ speed = s.hl.speed ∧ s.powered = true) →
      let button := i.terminals.find? fun e => e.2.role == .stopButton
      let stops := match l, button with
        | .opened, _ => [Report.sysEstop .loop]
        | .closed, some e => [.sysEstop (.button (termOfKey e.1))]
        | .closed, none => []
      let runs := if i.autorun = false then [] else match (loadImage i {}).validate with
        | none => [Report.sysMode .run]
        | some (o, c) => [.sysInvalid o c]
      exec row s = .next { State.reset with
        pending := s.pending, now := s.now, freeCount := s.freeCount
        mode := if i.autorun = true ∧ (loadImage i {}).validate = none then .run else .config
        sections := i.sections.map fun e => (e.1, { cfg := e.2, occupied := e.2.detector.isSome })
        fc := { State.reset.fc with
          modules := i.modules.map fun e => (e.1, { type := e.2 })
          terminals := i.terminals
          seqDue := some (s.now + 8 * (40000 / i.clock)), flashDue := s.now + 2000000
          clock := i.clock, clockInForce := i.clock, period := i.period, periodInForce := i.period }
        pu := { State.reset.pu with
          points := i.points.map fun e => (e.1, { cfg := e.2 })
          supply := .recharging (s.now + 4000 * i.recharge), recharge := i.recharge, detectTimeout := i.detectTimeout }
        ix := { State.reset.ix with
          routes := i.routes.map fun e => (e.1, { cfg := e.2 })
          signals := i.signals.map fun e => (e.1, { cfg := e.2, stopCut := e.2.stopSection.isSome })
          shuntCap := i.shuntCap, cautionCap := i.cautionCap, prelimCap := i.prelimCap }
        tt := { State.reset.tt with
          trains := i.trains.map fun e => (e.1, { cfg := e.2, state := if e.2.tag = none then .unused else .unplaced })
          lostTime := i.lostTime }
        dg := { State.reset.dg with
          period := i.drivePeriod, shadow := i.drivePeriod, zeroAt := s.now, bridgeCap := i.bridgeCap }
        tu := { State.reset.tu with bridge := i.bridge, roads := i.roads }
        vu := { State.reset.vu with
          shows := i.shows.map fun e => (e.1, { cfg := e.2 })
          boards := i.boardSources.map fun ls => { lines := ls.map fun src => { source := src } }
          judgeDue := s.now + 400000 }
        ss := { s.ss.abandon with stop := !stops.isEmpty, loop := l, save := none, autorun := i.autorun }
        hl := { State.reset.hl with speed := speed, reports := stops ++ runs ++ [.sysStart cause] } })
end

