-- ==== Sys2Proof/Laws/Table.lean ====
section
/-! SUPPORT. What the operations on tables and sets do: the numbers they list, the records they find, and the
canonical form they keep. -/

namespace Sys2Proof.Table

variable {α β : Type}

@[simp] theorem keys_update (t : Table α) (k : Nat) (f : α → α) : keys (update t k f) = keys t := by
  simp only [keys, update, List.map_map]
  apply List.map_congr_left
  intro e _
  simp only [Function.comp]; split <;> rfl

@[simp] theorem keys_mapVals (t : Table α) (f : α → β) : keys (mapVals t f) = keys t := by
  simp only [keys, mapVals, List.map_map]; rfl

/-- A map that leaves every number as it is leaves the list of numbers as it is. -/
theorem keys_map (t : Table α) (f : Nat × α → Nat × β) (h : ∀ e, (f e).1 = e.1) : keys (t.map f) = keys t := by
  simp only [keys, List.map_map]
  exact List.map_congr_left fun e _ => h e

/-- Whether a table is in canonical form is a matter of its numbers alone. -/
theorem wf_eq_of_keys (t : Table α) (u : Table β) (h : keys t = keys u) : wf t = wf u := by
  induction t generalizing u with
  | nil =>
    cases u with
    | nil => rfl
    | cons _ _ => simp [keys] at h
  | cons a t ih =>
    cases u with
    | nil => simp [keys] at h
    | cons b u =>
      simp only [keys, List.map_cons, List.cons.injEq] at h
      have hw := ih u h.2
      cases t with
      | nil => cases u with
        | nil => rfl
        | cons _ _ => simp at h
      | cons c t => cases u with
        | nil => simp at h
        | cons d u =>
          simp only [List.map_cons, List.cons.injEq] at h
          simp only [wf, h.1, h.2.1, hw]

@[simp] theorem wf_update (t : Table α) (k : Nat) (f : α → α) : wf (update t k f) = wf t :=
  wf_eq_of_keys _ _ (keys_update t k f)

@[simp] theorem wf_mapVals (t : Table α) (f : α → β) : wf (mapVals t f) = wf t :=
  wf_eq_of_keys _ _ (keys_mapVals t f)

theorem wf_cons (a : Nat × α) (t : Table α) : wf (a :: t) = true ↔ (∀ b ∈ t, a.1 < b.1) ∧ wf t = true := by
  induction t generalizing a with
  | nil => simp [wf]
  | cons b t ih =>
    simp only [wf, Bool.and_eq_true, decide_eq_true_eq, List.mem_cons, forall_eq_or_imp]
    constructor
    · rintro ⟨h, w⟩
      exact ⟨⟨h, fun c hc => Nat.lt_trans h ((ih b).1 w |>.1 c hc)⟩, w⟩
    · rintro ⟨⟨h, _⟩, w⟩; exact ⟨h, w⟩

theorem mem_put (t : Table α) (k : Nat) (v : α) (b : Nat × α) (h : b ∈ put t k v) : b = (k, v) ∨ b ∈ t := by
  induction t with
  | nil => simpa [put] using h
  | cons a t ih =>
    obtain ⟨j, w⟩ := a
    simp only [put] at h
    split at h
    · simp only [List.mem_cons] at h ⊢; exact h.imp id .inr
    · split at h
      · simpa using h
      · simp only [List.mem_cons] at h ⊢
        rcases h with h | h
        · exact .inr (.inl h)
        · exact (ih h).imp id .inr

theorem wf_put (t : Table α) (k : Nat) (v : α) (h : wf t = true) : wf (put t k v) = true := by
  induction t with
  | nil => rfl
  | cons a t ih =>
    obtain ⟨j, w⟩ := a
    have hc := (wf_cons _ _).1 h
    simp only [put]
    split
    · rename_i e; subst e; exact (wf_cons _ _).2 hc
    · split
      · rename_i hk
        refine (wf_cons _ _).2 ⟨?_, h⟩
        intro b hb
        rcases List.mem_cons.1 hb with rfl | hb
        · exact hk
        · exact Nat.lt_trans hk (hc.1 b hb)
      · refine (wf_cons _ _).2 ⟨?_, ih hc.2⟩
        intro b hb
        rcases mem_put t k v b hb with rfl | hb
        · simp only; omega
        · exact hc.1 b hb

theorem key_mem_put (t : Table α) (k : Nat) (v : α) (b : Nat × α) (h : b ∈ t) : ∃ c ∈ put t k v, c.1 = b.1 := by
  induction t with
  | nil => cases h
  | cons a t ih =>
    obtain ⟨j, w⟩ := a
    simp only [put]
    rcases List.mem_cons.1 h with rfl | h
    · split
      · exact ⟨_, List.mem_cons_self, by simp only; omega⟩
      · split
        · exact ⟨_, List.mem_cons_of_mem _ List.mem_cons_self, rfl⟩
        · exact ⟨_, List.mem_cons_self, rfl⟩
    · split
      · exact ⟨b, List.mem_cons_of_mem _ h, rfl⟩
      · split
        · exact ⟨b, List.mem_cons_of_mem _ (List.mem_cons_of_mem _ h), rfl⟩
        · obtain ⟨c, hc, e⟩ := ih h
          exact ⟨c, List.mem_cons_of_mem _ hc, e⟩

theorem wf_of_wf_put (t : Table α) (k : Nat) (v : α) (h : wf (put t k v) = true) : wf t = true := by
  induction t with
  | nil => rfl
  | cons a t ih =>
    obtain ⟨j, w⟩ := a
    simp only [put] at h
    split at h
    · rename_i e; subst e; exact (wf_cons (j, w) t).2 ((wf_cons (j, v) t).1 h)
    · split at h
      · exact ((wf_cons _ _).1 h).2
      · have hc := (wf_cons _ _).1 h
        refine (wf_cons _ _).2 ⟨fun b hb => ?_, ih hc.2⟩
        obtain ⟨c, m, e⟩ := key_mem_put t k v b hb
        exact e ▸ hc.1 c m

/-- Writing a record neither makes nor mends a breach of the canonical form. -/
theorem wf_put_iff (t : Table α) (k : Nat) (v : α) : wf (put t k v) = wf t :=
  Bool.eq_iff_iff.2 ⟨wf_of_wf_put t k v, wf_put t k v⟩

theorem mem_drop (t : Table α) (k : Nat) (b : Nat × α) (h : b ∈ drop t k) : b ∈ t := by
  induction t with
  | nil => exact h
  | cons a t ih =>
    obtain ⟨j, w⟩ := a
    simp only [drop] at h
    split at h
    · exact List.mem_cons_of_mem _ (ih h)
    · rcases List.mem_cons.1 h with rfl | h
      · exact List.mem_cons_self
      · exact List.mem_cons_of_mem _ (ih h)

theorem wf_drop (t : Table α) (k : Nat) (h : wf t = true) : wf (drop t k) = true := by
  induction t with
  | nil => rfl
  | cons a t ih =>
    obtain ⟨j, w⟩ := a
    have hc := (wf_cons _ _).1 h
    simp only [drop]
    split
    · exact ih hc.2
    · exact (wf_cons _ _).2 ⟨fun b hb => hc.1 b (mem_drop t k b hb), ih hc.2⟩

@[simp] theorem find_put_self (t : Table α) (k : Nat) (v : α) : find (put t k v) k = some v := by
  induction t with
  | nil => simp [put, find]
  | cons a t ih =>
    obtain ⟨j, w⟩ := a
    simp only [put]
    split
    · simp [find]
    · split
      · simp [find]
      · simp only [find]; rw [if_neg ‹¬j = k›, ih]

theorem find_put_of_ne (t : Table α) (k j : Nat) (v : α) (h : j ≠ k) : find (put t k v) j = find t j := by
  induction t with
  | nil => simp [put, find, h.symm]
  | cons a t ih =>
    obtain ⟨i, w⟩ := a
    simp only [put]
    split
    · rename_i e; subst e; simp [find, h.symm]
    · split
      · rw [find]; rw [if_neg h.symm]
      · simp only [find, ih]

theorem find_update (t : Table α) (k j : Nat) (f : α → α) :
    find (update t k f) j = if j = k then (find t j).map f else find t j := by
  induction t with
  | nil => simp [update, find]
  | cons a t ih =>
    obtain ⟨i, w⟩ := a
    simp only [update, List.map_cons] at ih ⊢
    by_cases hi : i = k <;> by_cases hj : i = j <;> simp_all [find]
    all_goals (subst_vars; simp_all)

theorem find_eq_some_iff (t : Table α) (h : wf t = true) (k : Nat) (a : α) : find t k = some a ↔ (k, a) ∈ t := by
  induction t with
  | nil => simp [find]
  | cons e rest ih =>
    obtain ⟨j, b⟩ := e
    obtain ⟨low, h⟩ := (wf_cons _ _).1 h
    simp only [find, List.mem_cons, Prod.mk.injEq]
    split
    · next hj =>
      subst hj
      refine ⟨fun hb => .inl ⟨rfl, (Option.some.inj hb).symm⟩, ?_⟩
      rintro (⟨_, rfl⟩ | hm)
      · rfl
      · exact absurd (low _ hm) (Nat.lt_irrefl j)
    · next hj =>
      rw [ih h]
      refine ⟨.inr, ?_⟩
      rintro (⟨rfl, _⟩ | hm)
      · exact absurd rfl hj
      · exact hm

theorem find_mapVals (t : Table α) (f : α → β) (k : Nat) : find (mapVals t f) k = (find t k).map f := by
  induction t with
  | nil => rfl
  | cons a t ih =>
    obtain ⟨j, w⟩ := a
    simp only [mapVals, List.map_cons, find] at ih ⊢
    split
    · rfl
    · exact ih

end Sys2Proof.Table
end

