-- ==== Sys2Proof/Laws/Checks.lean ====
section
/-! SUPPORT. What the visits of validation name (section 1.6), and what it is for a path to be followed (R16). -/

namespace Sys2Proof.Machine

open Sys2Proof

/-- The first record of a canonical table that does not pass is the lowest-numbered one. -/
theorem find?_failing_eq_some_iff {α : Type} (p : Nat → α → Bool) :
    ∀ {t : Table α}, Table.wf t = true → ∀ e : Nat × α, t.find? (fun e => !p e.1 e.2) = some e ↔
      Table.find t e.1 = some e.2 ∧ p e.1 e.2 = false ∧ ∀ m b, m < e.1 → Table.find t m = some b → p m b = true
  | [], _, e => by simp [Table.find]
  | (j, a) :: rest, h, e => by
    obtain ⟨low, h⟩ := (Table.wf_cons _ _).1 h
    have after : ∀ m b, Table.find rest m = some b → j < m := fun m b hm =>
      low (m, b) ((Table.find_eq_some_iff rest h m b).1 hm)
    obtain ⟨n, c⟩ := e
    cases hp : p j a with
    | false =>
      simp only [List.find?_cons, hp, Bool.not_false, Option.some.injEq, Prod.mk.injEq, Table.find]
      constructor
      · rintro ⟨rfl, rfl⟩
        refine ⟨if_pos rfl, hp, fun m b hm hb => ?_⟩
        rw [if_neg (by omega)] at hb
        exact absurd (after m b hb) (by omega)
      · rintro ⟨hf, _, lower⟩
        split at hf
        · next hj => exact ⟨hj, Option.some.inj hf⟩
        · have := lower j a (after n c hf) (if_pos rfl)
          simp [hp] at this
    | true =>
      simp only [List.find?_cons, hp, Bool.not_true, Table.find]
      rw [find?_failing_eq_some_iff p h (n, c)]
      constructor
      · rintro ⟨hf, hc, lower⟩
        have hn := after n c hf
        refine ⟨by rw [if_neg (by omega)]; exact hf, hc, fun m b hm hb => ?_⟩
        split at hb
        · next hj => subst hj; rw [← Option.some.inj hb]; exact hp
        · exact lower m b hm hb
      · rintro ⟨hf, hc, lower⟩
        split at hf
        · next hj => subst hj; rw [← Option.some.inj hf, hp] at hc; simp at hc
        · exact ⟨hf, hc, fun m b hm hb => lower m b hm (by rw [if_neg (Nat.ne_of_lt (after m b hb))]; exact hb)⟩

/-- A visit of a canonical table names the record of the lowest number that does not pass. -/
theorem visit_names {α : Type} {t : Table α} (h : Table.wf t = true) (name : Nat → Obj) (passes : Nat → α → Bool) :
    Names (visit t name passes) t name fun n a => passes n a = true := by
  unfold visit
  refine ⟨?_, fun n a ha hp lower => ?_⟩
  · rw [Option.map_eq_none_iff, List.find?_eq_none]
    constructor
    · intro all n a ha
      have := all (n, a) ((Table.find_eq_some_iff t h n a).1 ha)
      simpa using this
    · rintro all ⟨n, a⟩ ha
      simp [all n a ((Table.find_eq_some_iff t h n a).2 ha)]
  · rw [(find?_failing_eq_some_iff passes h (n, a)).2 ⟨ha, by simpa using hp, lower⟩]
    rfl

/-- Following a path answers the last section and the end by which it is entered, if the path is followed (R16). -/
theorem State.follow_eq_some_iff (s : State) (st : Stated) :
    ∀ (xs : List Nat) (y : Nat) (e : EndName) (last : Nat × EndName),
      s.follow st y e xs = some last ↔ s.Follows st y e xs last
  | [], y, e, last => by
    constructor
    · intro h; simp [State.follow] at h
    · rintro ⟨⟩
  | [x], y, e, last => by
    constructor
    · intro h
      unfold State.follow at h
      split at h
      · simp at h
      · next z f hr =>
        split at h
        · next hz => obtain rfl := hz; cases h; exact .one hr
        · simp at h
    · rintro (hr | _); simp [State.follow, hr]
  | x :: z :: rest, y, e, last => by
    constructor
    · intro h
      unfold State.follow at h
      split at h
      · simp at h
      · next w f hr =>
        split at h
        · next hw =>
          obtain rfl := hw
          simp only at h
          split at h
          · simp at h
          · next g hg => exact .more hr hg ((State.follow_eq_some_iff s st (z :: rest) _ _ _).1 h)
        · simp at h
    · rintro (_ | ⟨hr, hg, hs⟩)
      rw [State.follow, hr]
      simp [hg, (State.follow_eq_some_iff s st (z :: rest) _ _ _).2 hs]

end Sys2Proof.Machine
end

