-- ==== Sys2Proof/Laws/Words.lean ====
section
/-! SUPPORT. The words of a line, and the numbers written in them. -/

namespace Sys2Proof.Machine

open Sys2Proof

/-- A character that belongs to a word wherever it stands: no space and no quote. -/
abbrev wordChar (c : Char) : Prop := c ≠ ' ' ∧ c ≠ '"'

/-- The characters of a word join the word so far. -/
theorem splitWords_append (w acc rest : Text) (h : ∀ c ∈ w, wordChar c) :
    splitWords acc false (w ++ rest) = splitWords (w.reverse ++ acc) false rest := by
  induction w generalizing acc with
  | nil => rfl
  | cons c w ih =>
    have hc := h c (by simp)
    simp [splitWords, hc.1, hc.2, ih _ fun d hd => h d (by simp [hd])]

/-- A space ends the word so far. -/
theorem splitWords_space (w rest : Text) (h : w ≠ []) :
    splitWords w false (' ' :: rest) = (w.reverse :: (splitWords [] false rest).1, (splitWords [] false rest).2) := by
  simp [splitWords, h]

/-- A word before a space is the first word of the line. -/
theorem splitWords_word (w rest : Text) (h : ∀ c ∈ w, wordChar c) (hw : w ≠ []) :
    splitWords [] false (w ++ ' ' :: rest) = (w :: (splitWords [] false rest).1, (splitWords [] false rest).2) := by
  rw [splitWords_append w [] _ h, splitWords_space _ _ (by simpa using hw)]
  simp

/-- A word that ends the line is its only word. -/
theorem splitWords_last (w : Text) (h : ∀ c ∈ w, wordChar c) (hw : w ≠ []) : splitWords [] false w = ([w], false) := by
  have := splitWords_append w [] [] h
  simp only [List.append_nil] at this
  simp [this, splitWords, hw]

/-- The digits of a number, its last digit set apart. -/
theorem digits_step (n : Nat) (h : 10 ≤ n) : digits n = digits (n / 10) ++ [Nat.digitChar (n % 10)] :=
  Nat.toDigits_of_base_le (by decide) h

theorem digits_small (n : Nat) (h : n < 10) : digits n = [Nat.digitChar n] := Nat.toDigits_of_lt_base h

theorem digit?_digitChar : ∀ d < 10, digit? (Nat.digitChar d) = some d := by decide

theorem digits_ne_nil (n : Nat) : digits n ≠ [] := by
  by_cases h : n < 10
  · simp [digits_small n h]
  · simp [digits_step n (by omega)]

/-- Every character of the digits of a number is a digit. -/
theorem digits_digit (n : Nat) : ∀ c ∈ digits n, (digit? c).isSome = true := by
  induction n using Nat.strongRecOn with
  | _ n ih =>
    intro c hc
    by_cases h : n < 10
    · rw [digits_small n h, List.mem_singleton] at hc
      simp [hc, digit?_digitChar n h]
    · rw [digits_step n (by omega), List.mem_append, List.mem_singleton] at hc
      rcases hc with hc | hc
      · exact ih _ (by omega) c hc
      · simp [hc, digit?_digitChar _ (Nat.mod_lt n (by decide))]

theorem digitsValue_append (t : Text) (c : Char) :
    digitsValue (t ++ [c]) = 10 * digitsValue t + (digit? c).getD 0 := by
  simp [digitsValue]

/-- The digits of a number have its value. -/
theorem digitsValue_digits (n : Nat) : digitsValue (digits n) = n := by
  induction n using Nat.strongRecOn with
  | _ n ih =>
    by_cases h : n < 10
    · simp [digits_small n h, digitsValue, digit?_digitChar n h]
    · rw [digits_step n (by omega), digitsValue_append, ih _ (by omega),
        digit?_digitChar _ (Nat.mod_lt n (by decide))]
      simp only [Option.getD_some]
      omega

theorem length_digits_le (k n : Nat) (hk : 0 < k) (h : n < 10 ^ k) : (digits n).length ≤ k := by
  induction k generalizing n with
  | zero => omega
  | succ k ih =>
    by_cases hn : n < 10
    · simp [digits_small n hn]
    · have hk' : 0 < k := by
        rcases Nat.eq_zero_or_pos k with rfl | h'
        · simp at h; omega
        · exact h'
      rw [digits_step n (by omega)]
      simpa using ih (n / 10) hk' (by rw [Nat.pow_succ] at h; omega)

/-- A digit is neither a space, a quote, a point nor a sign. -/
theorem not_digit {c d : Char} (hc : (digit? c).isSome = true) (hd : digit? d = none) : c ≠ d := by
  rintro rfl
  simp [hd] at hc

/-- The characters of a number's digits are characters of a word. -/
theorem digits_word (n : Nat) : ∀ c ∈ digits n, wordChar c := fun c hc =>
  ⟨not_digit (digits_digit n c hc) (by decide), not_digit (digits_digit n c hc) (by decide)⟩

/-- A text without the character splits into itself. -/
theorem splitAt_none (d : Char) (t : Text) (h : ∀ c ∈ t, c ≠ d) : splitAt d t = [t] := by
  induction t with
  | nil => rfl
  | cons c t ih => simp [splitAt, h c (by simp), ih fun e he => h e (by simp [he])]

/-- A text splits at its first character of that kind. -/
theorem splitAt_first (d : Char) (t rest : Text) (h : ∀ c ∈ t, c ≠ d) :
    splitAt d (t ++ d :: rest) = t :: splitAt d rest := by
  induction t with
  | nil => simp [splitAt]
  | cons c t ih => simp [splitAt, h c (by simp), ih fun e he => h e (by simp [he])]

/-- The form of a number written in digits. -/
theorem readNumber_digits (n : Nat) : readNumber (digits n) = some ⟨false, digits n, none⟩ := by
  have hd := digits_digit n
  have hs : splitAt '.' (digits n) = [digits n] := splitAt_none _ _ fun c hc => not_digit (hd c hc) (by decide)
  have hall : allDigits (digits n) = true := List.all_eq_true.mpr hd
  have hne := digits_ne_nil n
  unfold readNumber
  split
  · rename_i rest hq
    exact absurd rfl (not_digit (hd '-' (by simp [hq])) (by decide : digit? '-' = none))
  · simp [hs, hall, hne]

/-- A number of one to five digits reads back (R153). -/
theorem readNat_digits (n : Nat) (h : n ≤ 99999) : readNat (digits n) = .ok n := by
  have hl := length_digits_le 5 n (by decide) (by omega)
  simp only [readNat, readNumber_digits, Number.tooLong, Option.getD_none, List.length_nil, Nat.add_zero,
    Option.isSome_none, Bool.or_false, digitsValue_digits]
  simp [Nat.not_lt.mpr hl]

end Sys2Proof.Machine
end

