-- ==== Sys2Proof/Laws/Fields.lean ====
section
/-! SUPPORT. What each reader of a field's value makes the field take. -/

namespace Sys2Proof.Machine

open Sys2Proof

/-- The digits of a number read as that number, when it is in range. -/
theorem readIn_digits (lo hi n : Nat) (h : n ≤ 99999) :
    readIn lo hi (digits n) = if lo ≤ n ∧ n ≤ hi then .ok n else .error .range := by
  simp [readIn, readNat_digits n h]

/-- A word with a character that is no digit is no number. -/
theorem digits_ne_word (n : Nat) (w : Text) (h : ∃ c ∈ w, digit? c = none) : digits n ≠ w := by
  rintro rfl
  obtain ⟨c, hc, h⟩ := h
  have := digits_digit n c hc
  simp [h] at this

/-- No full stop stands among the digits of a number. -/
theorem digits_no_stop (n : Nat) : ∀ c ∈ digits n, c ≠ '.' := fun c hc => not_digit (digits_digit n c hc) (by decide)

/-- A field read by `readIn` takes the numbers of its range. -/
theorem takesNumber_of_readIn {α} {field : Text → Text → FieldChange α} {name : String} {lo hi : Nat}
    {write : Nat → α → α}
    (h : ∀ v, field name.toList v = writeField (readIn lo hi v) write) : TakesNumber field name lo hi write := by
  refine ⟨?_, ?_, ?_, ?_⟩
  · intro n hn; rw [h, readIn_digits _ _ _ hn]; split <;> rfl
  · rw [h]; rfl
  · intro v _ hv; rw [h]; simp [readIn, readNat, hv, writeField]
  · intro v x hv hx; rw [h]
    have : (x.tooLong || x.negative || x.fraction.isSome) = true := by
      rcases hx with h | h | h
      · simp [h]
      · simp [Option.isSome_iff_ne_none, h]
      · simp [h]
    simp [readIn, readNat, hv, this, writeField]

/-- A field read by `readOption` of `readIn` takes the numbers of its range, or NONE. -/
theorem takesNumberOrNone_of_readOption {α} {field : Text → Text → FieldChange α} {name : String}
    {lo hi : Nat} {write : Option Nat → α → α}
    (h : ∀ v, field name.toList v = writeField (readOption (readIn lo hi) v) write) :
    TakesNumberOrNone field name lo hi write := by
  refine ⟨?_, ?_, ?_, ?_⟩
  · intro n hn; rw [h, readOption, readIn_digits _ _ _ hn]
    have : isWord (digits n) "NONE" = false := by
      simp only [isWord, beq_eq_false_iff_ne]; exact digits_ne_word n _ ⟨'N', by decide, by decide⟩
    by_cases hc : lo ≤ n ∧ n ≤ hi <;> simp [this, hc, writeField]
  · rw [h]; rfl
  · intro v hne hv; rw [h]
    have : isWord v "NONE" = false := by simpa [isWord] using hne
    simp [readOption, this, readIn, readNat, hv, writeField]
  · intro v x hv hx; rw [h]
    have hw : isWord v "NONE" = false := by
      simp only [isWord, beq_eq_false_iff_ne]; rintro rfl
      have : readNumber "NONE".toList = none := by rfl
      rw [this] at hv; cases hv
    have : (x.tooLong || x.negative || x.fraction.isSome) = true := by
      rcases hx with h | h | h
      · simp [h]
      · simp [Option.isSome_iff_ne_none, h]
      · simp [h]
    simp [readOption, hw, readIn, readNat, hv, this, writeField]

/-- A word is looked up in a table as `List.find?` does. -/
theorem pick_eq_find {β} (ws : List (String × β)) (v : Text) :
    pick ws v = (ws.find? fun w => w.1.toList == v).map (·.2) := by
  induction ws with
  | nil => rfl
  | cons w ws ih =>
    obtain ⟨a, b⟩ := w
    simp only [pick, isWord, List.find?]
    by_cases h : v = a.toList
    · simp [h]
    · have : (a.toList == v) = false := by simpa using fun e => h e.symm
      simp [h, this, ih]

/-- A field read by `readWordOf` takes the words of its table. -/
theorem takesWord_of_readWordOf {α β} {field : Text → Text → FieldChange α} {name : String}
    {ws : List (String × β)} {write : β → α → α}
    (h : ∀ v, field name.toList v = writeField (readWordOf ws v) write) : TakesWord field name ws write := by
  intro v; rw [h, readWordOf, pick_eq_find]
  cases ws.find? (fun w => w.1.toList == v) <;> rfl

/-- A field read by `terminalValue` takes a terminal of the chain, or NONE. -/
theorem takesTerminal_of_terminalValue {α} {field : Text → Text → FieldChange α} {name : String}
    {write : Option TermId → α → α}
    (h : ∀ v, field name.toList v = terminalValue v write) : TakesTerminal field name write := by
  refine ⟨?_, ?_, ?_⟩
  · rw [h]; rfl
  · intro m hm t ht; rw [h]
    have hw : isWord (digits m ++ '.' :: digits t) "NONE" = false := by
      simp only [isWord, beq_eq_false_iff_ne]
      intro e
      have : '.' ∈ "NONE".toList := by rw [← e]; simp
      exact absurd this (by decide)
    have hs : splitAt '.' (digits m ++ '.' :: digits t) = [digits m, digits t] := by
      rw [splitAt_first _ _ _ (digits_no_stop m), splitAt_none _ _ (digits_no_stop t)]
    simp only [terminalValue, readOption, hw, readTerminal, hs, readIn_digits _ _ _ hm, readIn_digits _ _ _ ht]
    by_cases h1 : m < 40 <;> by_cases h2 : t < 16
    · simp [h1, h2, Nat.le_of_lt_succ h1, Nat.le_of_lt_succ h2, writeField]
    · simp [h1, h2, Nat.le_of_lt_succ h1, writeField, show ¬ t ≤ 15 by omega]
    · simp [h1, h2, writeField, show ¬ m ≤ 39 by omega]
    · simp [h1, h2, writeField, show ¬ m ≤ 39 by omega]
  · intro v hv hd; rw [h]
    have hw : isWord v "NONE" = false := by simpa [isWord] using hv
    have hs : splitAt '.' v = [v] := splitAt_none _ _ fun c hc e => hd (by rw [← e]; exact hc)
    simp [terminalValue, readOption, hw, readTerminal, hs, writeField]

/-- A pair of a number and a word, joined by a full stop, read by `readPair`. -/
theorem readPair_digits {β} (hi n : Nat) (ws : List (String × β)) (v : Text) (hn : n ≤ 99999) (hv : '.' ∉ v) :
    readPair hi ws (digits n ++ '.' :: v) = match ws.find? (fun w => w.1.toList == v) with
      | some w => if n ≤ hi then .ok (n, w.2) else .error .range
      | none => .error .range := by
  have hs : splitAt '.' (digits n ++ '.' :: v) = [digits n, v] := by
    rw [splitAt_first _ _ _ (digits_no_stop n), splitAt_none _ _ fun c hc e => hv (by rw [← e]; exact hc)]
  simp only [readPair, hs, readIn_digits _ _ _ hn, readWordOf, pick_eq_find]
  cases ws.find? (fun w => w.1.toList == v) <;> by_cases h : n ≤ hi <;> simp [h]

/-- A value with a full stop is none of the words without one. -/
theorem isWord_stop (m : Nat) (v : Text) (w : String) (h : '.' ∉ w.toList) :
    isWord (digits m ++ '.' :: v) w = false := by
  simp only [isWord, beq_eq_false_iff_ne]
  intro e
  exact h (by rw [← e]; simp)

/-- A field read by `readOption` of `readPair` takes its pairs, or NONE. -/
theorem takesPair_of_readPair {α β} {field : Text → Text → FieldChange α} {name : String} {hi : Nat}
    {ws : List (String × β)}
    {write : Option (Nat × β) → α → α}
    (h : ∀ v, field name.toList v = writeField (readOption (readPair hi ws) v) write) :
    TakesPair field name hi ws (fun b => write (some b)) (.ok (write none)) := by
  refine ⟨?_, ?_⟩
  · rw [h]; rfl
  · intro n hn v hv; rw [h, readOption, isWord_stop n v "NONE" (by decide), readPair_digits _ _ _ _ hn hv]
    cases ws.find? (fun w => w.1.toList == v) with
    | none => rfl
    | some w => dsimp only; by_cases h : n ≤ hi <;> simp [h, writeField]

/-- Items joined by commas are the items between the commas. -/
theorem splitAt_commas {β} (spell : β → Text) (l : List β) (hl : l ≠ []) (hc : ∀ b ∈ l, ',' ∉ spell b) :
    splitAt ',' (l.flatMap fun b => ',' :: spell b).tail = l.map spell := by
  induction l with
  | nil => exact absurd rfl hl
  | cons b l ih =>
    cases l with
    | nil => simp; exact splitAt_none _ _ fun c h e => hc b (by simp) (by rw [← e]; exact h)
    | cons b' l =>
      have := ih (by simp) fun x hx => hc x (by simp [hx])
      simp only [List.flatMap_cons, List.cons_append, List.tail_cons] at this ⊢
      rw [splitAt_first _ _ _ fun c h e => hc b (by simp) (by rw [← e]; exact h), this]; rfl

/-- A list of items that each reads back or fails its range. -/
theorem readAll_spell {β} (f : Text → Except Code β) (spell : β → Text) (good : β → Bool) (l : List β)
    (h : ∀ b ∈ l, f (spell b) = if good b = true then .ok b else .error .range) :
    readAll f (l.map spell) = if ∀ b ∈ l, good b = true then .ok l else .error .range := by
  induction l with
  | nil => simp [readAll]
  | cons b l ih =>
    simp only [List.map_cons, readAll, h b (by simp)]
    have ih := ih fun x hx => h x (by simp [hx])
    by_cases hb : good b = true
    · simp only [hb, if_true, ih]
      by_cases hl : ∀ b ∈ l, good b = true
      · rw [if_pos hl, if_pos (by simpa [hb] using hl)]
      · rw [if_neg hl, if_neg (by simpa [hb] using hl)]
    · rw [if_neg hb, if_neg (by simp [hb])]

/-- A field read by `readList` takes the lists of its length and its items. -/
theorem takesList_of_readList {α β} {field : Text → Text → FieldChange α} {name : String} {lo hi : Nat}
    {spell : β → Text}
    {short good : β → Bool} {write : List β → α → α} (f : Text → Except Code β)
    (h : ∀ v, field name.toList v = writeField (readList lo hi f v) write)
    (hc : ∀ b, ',' ∉ spell b) (hn : ∀ b, spell b ≠ [] ∧ spell b ≠ "NONE".toList)
    (hf : ∀ b, short b = true → f (spell b) = if good b = true then .ok b else .error .range) :
    TakesList field name lo hi spell short good write := by
  refine ⟨?_, ?_⟩
  · intro l hl hs; rw [h]
    have hsp := splitAt_commas spell l hl fun b _ => hc b
    have hi : listItems (l.flatMap fun b => ',' :: spell b).tail = l.map spell := by
      unfold listItems
      rw [if_neg, hsp]
      rintro (e | e)
      · rw [e] at hsp; simp only [splitAt] at hsp
        cases l with
        | nil => exact hl rfl
        | cons b l => simp at hsp; exact (hn b).1 hsp.1
      · have e : (l.flatMap fun b => ',' :: spell b).tail = "NONE".toList := by simpa [isWord] using e
        rw [e, splitAt_none _ _ (by simp)] at hsp
        cases l with
        | nil => exact hl rfl
        | cons b l => simp at hsp; exact (hn b).2 (by simpa using hsp.1.symm)
    simp only [readList, hi, List.length_map, readAll_spell f spell good l fun b hb => hf b (hs b hb)]
    split <;> rename_i h1
    · rw [if_neg (by omega)]; rfl
    · by_cases h2 : ∀ b ∈ l, good b = true
      · rw [if_pos h2, if_pos ⟨by omega, by omega, h2⟩]; rfl
      · rw [if_neg h2, if_neg fun x => h2 x.2.2]; rfl
  · rintro v hv; rw [h]
    have hi : listItems v = [] := by
      unfold listItems; rw [if_pos]; rcases hv with rfl | rfl
      · right; rfl
      · left; rfl
    simp only [readList, hi, List.length_nil]
    by_cases h0 : lo = 0
    · simp [h0, readAll, writeField]
    · rw [if_pos (by omega), if_neg h0]; rfl

end Sys2Proof.Machine
end

