-- ==== Sys2Proof/Laws/Link.lean ====
section
/-! SUPPORT. Every block but the host link leaves the host link's line, buffer, slot and transmitter alone: one
lemma for each operation, cited by the next. -/

namespace Sys2Proof.Machine

open Sys2Proof

set_option linter.unusedSimpArgs false

/-- A change of anything but the host link, the queue of commands and the power. -/
theorem link_mk (s : State) (n : Nat) (a : List Notice) (fr : Nat) (m : Mode) (secs : Table SectionRec) (fc : Chain)
    (pu : PointUnit) (ix : Interlocking) (tt : Tracker) (dg : Drive) (tu : Turntable) (vu : Visitor)
    (ss : StopStore) :
    (State.mk s.powered s.pending n a fr m secs fc pu ix tt dg tu vu ss s.hl).link = s.link := rfl

theorem link_foldState {α : Type} (f : α → State → State) (h : ∀ a s, (f a s).link = s.link) (l : List α)
    (s : State) : (foldState f l s).link = s.link := by
  induction l generalizing s with
  | nil => rfl
  | cons a rest ih => rw [foldState, ih, h]

theorem link_reach (s : State) (t : Nat) : (State.reach s t).link = s.link := by
  unfold State.reach
  repeat' first | with_reducible rfl | simp only [link_mk] | split

theorem link_expire (s : State) (t : Timer) : (State.expire s t).link = s.link := by
  unfold State.expire
  repeat' first | with_reducible rfl | simp only [link_mk, link_reach] | split

theorem link_report (s : State) (r : Report) : (s.report r).link = s.link := by
  have h : ∀ h : HostLink, (h.report r).view = h.view := by
    intro h; funext p q; unfold HostLink.report
    split
    · split
      · simp only [HostLink.view, LinkView.mk.injEq, List.length_append, List.length_singleton, true_and, decide_eq_decide]
        simp only [Config.reportMax] at *; omega
      · rfl
    · rfl
  simp only [State.link, State.report, h]

theorem link_hand (s : State) (n : Notice) : (State.hand s n).link = s.link := by
  unfold State.hand
  repeat' first | with_reducible rfl | simp only [link_mk] | split

theorem link_handAll (s : State) (ns : List Notice) : (State.handAll s ns).link = s.link := by
  unfold State.handAll
  repeat' first | with_reducible rfl | simp only [link_mk] | split

theorem link_askReexamine (s : State) : (State.askReexamine s).link = s.link := by
  unfold State.askReexamine
  repeat' first | with_reducible rfl | simp only [link_mk, link_hand] | split

theorem link_setSection (s : State) (x : Nat) (f : SectionRec → SectionRec) :
    (State.setSection s x f).link = s.link := by
  unfold State.setSection
  repeat' first | with_reducible rfl | simp only [link_mk] | split

theorem link_setPoint (s : State) (p : Nat) (f : PointRec → PointRec) : (State.setPoint s p f).link = s.link := by
  unfold State.setPoint
  repeat' first | with_reducible rfl | simp only [link_mk] | split

theorem link_setRoute (s : State) (r : Nat) (f : RouteRec → RouteRec) : (State.setRoute s r f).link = s.link := by
  unfold State.setRoute
  repeat' first | with_reducible rfl | simp only [link_mk] | split

theorem link_setTrain (s : State) (n : Nat) (f : TrainRec → TrainRec) : (State.setTrain s n f).link = s.link := by
  unfold State.setTrain
  repeat' first | with_reducible rfl | simp only [link_mk] | split

theorem link_setShow (s : State) (n : Nat) (f : ShowRec → ShowRec) : (State.setShow s n f).link = s.link := by
  unfold State.setShow
  repeat' first | with_reducible rfl | simp only [link_mk] | split

theorem link_setTurn (s : State) (f : Turntable → Turntable) : (State.setTurn s f).link = s.link := by
  unfold State.setTurn
  repeat' first | with_reducible rfl | simp only [link_mk] | split

theorem link_setOccupied (x : Nat) (v : Bool) (s : State) : (setOccupied x v s).link = s.link := by
  unfold setOccupied
  repeat' first | with_reducible rfl | simp only [link_mk, link_report, link_hand, link_setSection] | split

theorem link_refreshSection (x : Nat) (s : State) : (refreshSection x s).link = s.link := by
  unfold refreshSection
  repeat' first | with_reducible rfl | simp only [link_mk, link_setOccupied] | split

theorem link_changePoint (p : Nat) (f : PointRec → PointRec) (rep : Report) (e : PointEvent) (s : State) :
    (changePoint p f rep e s).link = s.link := by
  unfold changePoint
  repeat' first | with_reducible rfl | simp only [link_mk, link_report, link_hand, link_setPoint] | split

theorem link_dropPoint (p : Nat) (cause : DropCause) (s : State) : (dropPoint p cause s).link = s.link := by
  unfold dropPoint
  repeat' first | with_reducible rfl | simp only [link_mk, link_changePoint] | split

theorem link_unqueue (s : State) (p : Nat) : (State.unqueue s p).link = s.link := by
  unfold State.unqueue
  repeat' first | with_reducible rfl | simp only [link_mk] | split

theorem link_startPulse (p : Nat) (pos : PointPos) (s : State) : (startPulse p pos s).link = s.link := by
  unfold startPulse
  repeat' first | with_reducible rfl | simp only [link_mk, link_setPoint] | split

theorem link_pulseFrom (k : Nat) (s : State) : (pulseFrom k s).link = s.link := by
  induction k generalizing s with
  | zero => rfl
  | succ k ih =>
    unfold pulseFrom
    repeat' first | with_reducible rfl | simp only [link_mk, link_startPulse, link_dropPoint, link_askReexamine, ih] | split

theorem link_considerPulse (s : State) : (considerPulse s).link = s.link := by
  unfold considerPulse
  repeat' first | with_reducible rfl | simp only [link_mk, link_pulseFrom] | split

theorem link_completeThrow (p : Nat) (pos : PointPos) (s : State) : (completeThrow p pos s).link = s.link := by
  unfold completeThrow
  repeat' first | with_reducible rfl | simp only [link_mk, link_askReexamine, link_changePoint] | split

theorem link_endPulse (s : State) : (endPulse s).link = s.link := by
  unfold endPulse
  repeat' first | with_reducible rfl | simp only [link_mk, link_setPoint, link_completeThrow] | split

theorem link_cutPulse (s : State) : (cutPulse s).link = s.link := by
  unfold cutPulse
  repeat' first | with_reducible rfl | simp only [link_mk] | split

theorem link_pointsUpdate (n : Nat) (s : State) : (pointsUpdate n s).link = s.link := by
  unfold pointsUpdate
  repeat' first | with_reducible rfl | simp only [link_mk, link_endPulse, link_cutPulse] | split

theorem link_judgeAtRest (p : Nat) (r : PointRec) (s : State) : (judgeAtRest p r s).link = s.link := by
  unfold judgeAtRest
  repeat' first | with_reducible rfl | simp only [link_mk, link_changePoint] | split

theorem link_refreshPoint (p : Nat) (s : State) : (refreshPoint p s).link = s.link := by
  unfold refreshPoint
  repeat' first
    | with_reducible rfl
    | simp only [link_mk, link_setPoint, link_completeThrow, link_judgeAtRest]
    | split

theorem link_detectionTimeout (p : Nat) (s : State) : (detectionTimeout p s).link = s.link := by
  unfold detectionTimeout
  repeat' first | with_reducible rfl | simp only [link_mk, link_expire, link_changePoint] | split

theorem link_commandPoint (p : Nat) (pos : PointPos) (ph : Phase) (s : State) :
    (commandPoint p pos ph s).link = s.link := by
  unfold commandPoint
  repeat' first | with_reducible rfl | simp only [link_mk, link_setPoint, link_changePoint] | split

theorem link_joinQueue (p : Nat) (pos : PointPos) (ph : Phase) (s : State) :
    (joinQueue p pos ph s).link = s.link := by
  unfold joinQueue
  repeat' first | with_reducible rfl | simp only [link_mk, link_considerPulse, link_commandPoint] | split

theorem link_replaceEntry (p : Nat) (pos : PointPos) (ph : Phase) (s : State) :
    (replaceEntry p pos ph s).link = s.link := by
  unfold replaceEntry
  repeat' first | with_reducible rfl | simp only [link_mk, link_commandPoint] | split

theorem link_throwPoint (p : Nat) (pos : PointPos) (s : State) : (throwPoint p pos s).link = s.link := by
  unfold throwPoint
  repeat' first | with_reducible rfl | simp only [link_mk, link_joinQueue, link_replaceEntry] | split

theorem link_withdrawThrow (p : Nat) (s : State) : (withdrawThrow p s).link = s.link := by
  unfold withdrawThrow
  repeat' first | with_reducible rfl | simp only [link_mk, link_askReexamine, link_dropPoint, link_unqueue] | split

theorem link_pointsStop (s : State) : (pointsStop s).link = s.link := by
  unfold pointsStop
  repeat' first
    | with_reducible rfl
    | simp only [link_mk, link_askReexamine, link_dropPoint, link_unqueue, link_cutPulse]
    | with_reducible refine (link_foldState _ (fun a s => ?_) _ _).trans ?_
    | split

theorem link_rechargeExpiry (s : State) : (rechargeExpiry s).link = s.link := by
  unfold rechargeExpiry
  repeat' first | with_reducible rfl | simp only [link_mk, link_reach, link_considerPulse] | split

theorem link_coilsCleared (s : State) : (coilsCleared s).link = s.link := by
  unfold coilsCleared
  repeat' first | with_reducible rfl | simp only [link_mk, link_endPulse] | split

theorem link_clearFlag (p : Nat) (s : State) : (clearFlag p s).link = s.link := by
  unfold clearFlag
  repeat' first | with_reducible rfl | simp only [link_mk, link_askReexamine, link_setPoint] | split

theorem link_cmdPoint (p : Nat) (pos : PointPos) (s : State) : (cmdPoint p pos s).1.link = s.link := by
  unfold cmdPoint
  repeat' first | with_reducible rfl | simp only [link_mk, link_throwPoint, link_clearFlag] | split

theorem link_refreshSignals (s : State) : (refreshSignals s).link = s.link := by
  unfold refreshSignals
  repeat' first | with_reducible rfl | simp only [link_mk] | split

theorem link_handAspects (before l : List (Nat × Aspect)) (s : State) : (handAspects before l s).link = s.link := by
  induction l generalizing s with
  | nil => rfl
  | cons e rest ih =>
    obtain ⟨g, a⟩ := e
    unfold handAspects
    repeat' first | with_reducible rfl | simp only [link_mk, link_report, ih] | split

theorem link_settleSignals (before : List (Nat × Aspect)) (s : State) : (settleSignals before s).link = s.link := by
  unfold settleSignals
  repeat' first | with_reducible rfl | simp only [link_mk, link_refreshSignals, link_handAspects] | split

theorem link_carry (n : Nat) (s : State) : (carry n s).link = s.link := by
  unfold carry
  repeat' first | with_reducible rfl | simp only [link_mk, link_hand, link_setTrain, link_setTurn] | split

theorem link_takeCarried (s : State) : (takeCarried s).link = s.link := by
  unfold takeCarried
  repeat' first | with_reducible rfl | simp only [link_mk, link_carry] | split

theorem link_releaseCarried (s : State) : (releaseCarried s).link = s.link := by
  unfold releaseCarried
  repeat' first | with_reducible rfl | simp only [link_mk, link_hand, link_setTrain, link_setTurn] | split

theorem link_carryPlaced (n x : Nat) (s : State) : (carryPlaced n x s).link = s.link := by
  unfold carryPlaced
  repeat' first | with_reducible rfl | simp only [link_mk, link_carry] | split

theorem link_dropCarried (n : Nat) (s : State) : (dropCarried n s).link = s.link := by
  unfold dropCarried
  repeat' first | with_reducible rfl | simp only [link_mk, link_releaseCarried] | split

theorem link_endStepping (s : State) : (endStepping s).link = s.link := by
  unfold endStepping
  repeat' first | with_reducible rfl | simp only [link_mk] | split

theorem link_tellOrigin (m : Move) (out : MoveOutcome) (s : State) : (tellOrigin m out s).link = s.link := by
  unfold tellOrigin
  repeat' first | with_reducible rfl | simp only [link_mk, link_hand, link_setRoute] | split

theorem link_restAt (pos : Nat) (s : State) : (restAt pos s).link = s.link := by
  unfold restAt
  repeat' first
    | with_reducible rfl
    | simp only [link_mk, link_report, link_hand, link_setTurn, link_releaseCarried, link_endStepping,
      link_tellOrigin]
    | split

theorem link_losePosition (st : BridgeState) (rep : Report) (s : State) : (losePosition st rep s).link = s.link := by
  unfold losePosition
  repeat' first
    | with_reducible rfl
    | simp only [link_mk, link_report, link_hand, link_setTurn, link_releaseCarried, link_endStepping,
      link_tellOrigin]
    | split

theorem link_judgeFacings (s : State) : (judgeFacings s).link = s.link := by
  unfold judgeFacings
  repeat' first | with_reducible rfl | simp only [link_mk, link_report, link_hand, link_setTurn] | split

theorem link_beginMove (k : Nat) (e : BridgeEnd) (dir : Option MoveDir) (origin : Origin) (s : State) :
    (beginMove k e dir origin s).1.link = s.link := by
  unfold beginMove; repeat' first | with_reducible rfl | simp only [link_setTurn, link_report, link_hand, link_takeCarried] | split

theorem link_requestMove {k : Nat} {e : BridgeEnd} {dir : Option MoveDir} {origin : Origin} {s s1 : State}
    {w : Option MoveDir} (h : requestMove k e dir origin s = .ok (s1, w)) : s1.link = s.link := by
  unfold requestMove at h
  split at h
  · cases h
  · rw [← link_beginMove k e dir origin s, Except.ok.inj h]

theorem link_beginHoming (b : BridgeCfg) (s : State) : (beginHoming b s).link = s.link := by
  unfold beginHoming
  repeat' first
    | with_reducible rfl
    | simp only [link_mk, link_report, link_hand, link_setTurn, link_takeCarried]
    | split

theorem link_bridgeStep (s : State) : (bridgeStep s).link = s.link := by
  unfold bridgeStep
  repeat' first
    | with_reducible rfl
    | simp only [link_mk, link_expire, link_setTurn, link_restAt, link_losePosition]
    | split

theorem link_setRate (r : Nat) (s : State) : (setRate r s).link = s.link := by
  unfold setRate
  repeat' first | with_reducible rfl | simp only [link_mk, link_setTurn] | split

theorem link_rateUpdate (s : State) : (rateUpdate s).link = s.link := by
  unfold rateUpdate
  repeat' first
    | with_reducible rfl
    | simp only [link_mk, link_expire, link_setTurn, link_restAt, link_setRate]
    | split

theorem link_driftCheck (n : Nat) (m : Move) (pos : Nat) (s : State) : (driftCheck n m pos s).link = s.link := by
  unfold driftCheck
  repeat' first
    | with_reducible rfl
    | simp only [link_mk, link_report, link_setTurn, link_restAt, link_losePosition]
    | split

theorem link_homeEdge (s : State) : (homeEdge s).link = s.link := by
  unfold homeEdge
  repeat' first | with_reducible rfl | simp only [link_mk, link_restAt, link_driftCheck] | split

theorem link_turntableStop (s : State) : (turntableStop s).link = s.link := by
  unfold turntableStop
  repeat' first | with_reducible rfl | simp only [link_mk, link_restAt, link_losePosition] | split

theorem link_cmdTurn (k : Nat) (e : Option BridgeEnd) (dir : Option MoveDir) (s : State) :
    (cmdTurn k e dir s).1.link = s.link := by
  unfold cmdTurn
  repeat' first | with_reducible rfl | exact link_requestMove ‹_› | split

theorem link_cmdTurnHome (s : State) : (cmdTurnHome s).1.link = s.link := by
  unfold cmdTurnHome
  repeat' first | with_reducible rfl | simp only [link_mk, link_beginHoming] | split

theorem link_cmdTurnStop (s : State) : (cmdTurnStop s).1.link = s.link := by
  unfold cmdTurnStop
  repeat' first
    | with_reducible rfl
    | simp only [link_mk, link_report, link_hand, link_setTurn, link_losePosition]
    | split

theorem link_leavePoint (r p : Nat) (s : State) : (leavePoint r p s).link = s.link := by
  unfold leavePoint
  repeat' first | with_reducible rfl | simp only [link_mk, link_setPoint] | split

theorem link_leaveBridge (r : Nat) (s : State) : (leaveBridge r s).link = s.link := by
  unfold leaveBridge
  repeat' first | with_reducible rfl | simp only [link_mk, link_setTurn] | split

theorem link_releaseSection (r : Nat) (c : RouteCfg) (x : Nat) (s : State) :
    (releaseSection r c x s).link = s.link := by
  unfold releaseSection
  repeat' first | with_reducible rfl | simp only [link_mk, link_setSection, link_leavePoint, link_leaveBridge] | split

theorem link_leaveAll (r : Nat) (s : State) : (leaveAll r s).link = s.link := by
  unfold leaveAll
  repeat' first
    | with_reducible rfl
    | simp only [link_mk, link_leavePoint, link_leaveBridge]
    | with_reducible refine (link_foldState _ (fun a s => ?_) _ _).trans ?_
    | split

theorem link_changeRoute (r : Nat) (st : RouteState) (rep : Report) (f : RouteRec → RouteRec) (s : State) :
    (changeRoute r st rep f s).link = s.link := by
  unfold changeRoute
  repeat' first | with_reducible rfl | simp only [link_mk, link_report, link_hand, link_setRoute] | split

theorem link_setMark (n : Nat) (m : RequestMark) (s : State) : (setMark n m s).link = s.link := by
  unfold setMark
  repeat' first | with_reducible rfl | simp only [link_mk, link_setTrain] | split

theorem link_clearStarted (r : Nat) (s : State) : (clearStarted r s).link = s.link := by
  unfold clearStarted
  repeat' first
    | with_reducible rfl
    | simp only [link_mk, link_setMark]
    | with_reducible refine (link_foldState _ (fun a s => ?_) _ _).trans ?_
    | split

theorem link_idleRoute (r : Nat) (s : State) : (idleRoute r s).link = s.link := by
  unfold idleRoute
  repeat' first
    | with_reducible rfl
    | simp only [link_mk, link_askReexamine, link_changeRoute, link_clearStarted]
    | split

theorem link_withdrawIfFree (p : Nat) (s : State) : (withdrawIfFree p s).link = s.link := by
  unfold withdrawIfFree
  repeat' first | with_reducible rfl | simp only [link_mk, link_withdrawThrow] | split

theorem link_fullRelease (r : Nat) (s : State) : (fullRelease r s).link = s.link := by
  unfold fullRelease
  repeat' first
    | with_reducible rfl
    | simp only [link_mk, link_setSection, link_setRoute, link_leaveAll, link_withdrawIfFree]
    | with_reducible refine (link_foldState _ (fun a s => ?_) _ _).trans ?_
    | split

theorem link_releaseToIdle (r : Nat) (s : State) : (releaseToIdle r s).link = s.link := by
  unfold releaseToIdle
  repeat' first | with_reducible rfl | simp only [link_mk, link_idleRoute, link_fullRelease] | split

theorem link_failRoute (r : Nat) (cause : FailCause) (s : State) : (failRoute r cause s).link = s.link := by
  unfold failRoute
  repeat' first | with_reducible rfl | simp only [link_mk, link_report, link_hand, link_releaseToIdle] | split

theorem link_testProof (r : Nat) (s : State) : (testProof r s).link = s.link := by
  unfold testProof
  repeat' first | with_reducible rfl | simp only [link_mk, link_changeRoute] | split

theorem link_askMove (r k : Nat) (e : BridgeEnd) (s : State) : (askMove r k e s).link = s.link := by
  unfold askMove
  repeat' first | with_reducible rfl | exact link_requestMove ‹_› | exact (link_setRoute _ _ _).trans (link_requestMove ‹_›) | simp only [link_hand] | split

theorem link_enterSetting (r : Nat) (c : RouteCfg) (s : State) : (enterSetting r c s).link = s.link := by
  unfold enterSetting
  repeat' first
    | with_reducible rfl
    | simp only [link_mk, link_setSection, link_setPoint, link_setRoute, link_setTurn, link_throwPoint,
      link_changeRoute, link_testProof, link_askMove]
    | with_reducible refine (link_foldState _ (fun a s => ?_) _ _).trans ?_
    | split

theorem link_unrequest (s : State) (r : Nat) : (State.unrequest s r).link = s.link := by
  unfold State.unrequest
  repeat' first | with_reducible rfl | simp only [link_mk] | split

theorem link_startRequest (r : Nat) (s : State) : (startRequest r s).link = s.link := by
  unfold startRequest
  repeat' first | with_reducible rfl | simp only [link_mk, link_hand, link_unrequest] | split

theorem link_dropRequest (r : Nat) (cause : RequestDrop) (s : State) : (dropRequest r cause s).link = s.link := by
  unfold dropRequest
  repeat' first | with_reducible rfl | simp only [link_mk, link_report, link_hand, link_unrequest] | split

theorem link_visitRequest (q : Request) (s : State) : (visitRequest q s).link = s.link := by
  unfold visitRequest
  repeat' first | with_reducible rfl | simp only [link_mk, link_enterSetting, link_startRequest] | split

theorem link_reexamine (s : State) : (reexamine s).link = s.link := by
  unfold reexamine
  repeat' first
    | with_reducible rfl
    | simp only [link_mk, link_visitRequest]
    | with_reducible refine (link_foldState _ (fun a s => ?_) _ _).trans ?_
    | split

theorem link_storeRequest (r : Nat) (origin : Origin) (expiry : Option Nat) (s : State) :
    (storeRequest r origin expiry s).1.link = s.link := by
  unfold storeRequest; repeat' first | with_reducible rfl | simp only [link_mk, link_enterSetting, link_report] | split

theorem link_of_store {r : Nat} {origin : Origin} {expiry : Option Nat} {s s1 : State} {o : StoreOutcome}
    (h : storeRequest r origin expiry s = (s1, o)) : s1.link = s.link := by
  rw [← link_storeRequest r origin expiry s, h]

theorem link_withdrawRequests (origin : Origin) (s : State) : (withdrawRequests origin s).link = s.link := by
  unfold withdrawRequests
  repeat' first
    | with_reducible rfl
    | simp only [link_mk, link_dropRequest]
    | with_reducible refine (link_foldState _ (fun a s => ?_) _ _).trans ?_
    | split

theorem link_idleIfFree (r : Nat) (s : State) : (idleIfFree r s).link = s.link := by
  unfold idleIfFree
  repeat' first | with_reducible rfl | simp only [link_mk, link_idleRoute] | split

theorem link_freeSection (r : Nat) (c : RouteCfg) (x : Nat) (s : State) : (freeSection r c x s).link = s.link := by
  unfold freeSection
  repeat' first | with_reducible rfl | simp only [link_mk, link_releaseSection, link_reexamine] | split

theorem link_giveUp (r : Nat) (c : RouteCfg) (s : State) : (giveUp r c s).link = s.link := by
  unfold giveUp
  repeat' first
    | with_reducible rfl
    | simp only [link_mk, link_setRoute, link_leaveAll, link_reexamine, link_freeSection]
    | with_reducible refine (link_foldState _ (fun a s => ?_) _ _).trans ?_
    | split

theorem link_releaseBehind (r n : Nat) (q : RouteRec) (s : State) : (releaseBehind r n q s).link = s.link := by
  unfold releaseBehind
  repeat' first
    | with_reducible rfl
    | simp only [link_mk, link_freeSection]
    | with_reducible refine (link_foldState _ (fun a s => ?_) _ _).trans ?_
    | split

theorem link_releaseFinal (r n : Nat) (q : RouteRec) (s : State) : (releaseFinal r n q s).link = s.link := by
  unfold releaseFinal
  repeat' first
    | with_reducible rfl
    | simp only [link_mk, link_leavePoint, link_releaseSection, link_reexamine]
    | with_reducible refine (link_foldState _ (fun a s => ?_) _ _).trans ?_
    | split

theorem link_releaseOverlap (r n : Nat) (q : RouteRec) (s : State) : (releaseOverlap r n q s).link = s.link := by
  unfold releaseOverlap
  repeat' first
    | with_reducible rfl
    | simp only [link_mk, link_freeSection]
    | with_reducible refine (link_foldState _ (fun a s => ?_) _ _).trans ?_
    | split

theorem link_releaseRemoved (r n : Nat) (q : RouteRec) (x : Nat) (s : State) :
    (releaseRemoved r n q x s).link = s.link := by
  unfold releaseRemoved
  repeat' first | with_reducible rfl | simp only [link_mk, link_freeSection, link_releaseFinal] | split

theorem link_judgeReleases (removed : Option Nat) (r : Nat) (s : State) :
    (judgeReleases removed r s).link = s.link := by
  unfold judgeReleases
  repeat' first
    | with_reducible rfl
    | simp only [link_mk, link_idleIfFree, link_giveUp, link_releaseBehind, link_releaseFinal, link_releaseOverlap,
      link_releaseRemoved]
    | split

theorem link_judgeDwell (r : Nat) (s : State) : (judgeDwell r s).link = s.link := by
  unfold judgeDwell
  repeat' first | with_reducible rfl | simp only [link_mk, link_setRoute] | split

theorem link_overlapRelease (r : Nat) (s : State) : (overlapRelease r s).link = s.link := by
  unfold overlapRelease
  repeat' first | with_reducible rfl | simp only [link_mk, link_setRoute, link_judgeReleases] | split

theorem link_startOverlap (r x : Nat) (s : State) : (startOverlap r x s).link = s.link := by
  unfold startOverlap
  repeat' first | with_reducible rfl | simp only [link_mk, link_setRoute, link_overlapRelease] | split

theorem link_occupyRoute (n r : Nat) (s : State) : (occupyRoute n r s).link = s.link := by
  unfold occupyRoute
  repeat' first | with_reducible rfl | simp only [link_mk, link_changeRoute] | split

theorem link_appendToRoute (x r : Nat) (s : State) : (appendToRoute x r s).link = s.link := by
  unfold appendToRoute
  repeat' first
    | with_reducible rfl
    | simp only [link_mk, link_setRoute, link_judgeReleases, link_judgeDwell, link_startOverlap]
    | split

theorem link_ixAppend (n x : Nat) (prev : Option ListEntry) (s : State) : (ixAppend n x prev s).link = s.link := by
  unfold ixAppend
  repeat' first
    | with_reducible rfl
    | simp only [link_mk, link_occupyRoute, link_appendToRoute]
    | with_reducible refine (link_foldState _ (fun a s => ?_) _ _).trans ?_
    | split

theorem link_ixListChange (n : Nat) (removed : Option Nat) (s : State) :
    (ixListChange n removed s).link = s.link := by
  unfold ixListChange
  repeat' first
    | with_reducible rfl
    | simp only [link_mk, link_judgeReleases, link_judgeDwell]
    | with_reducible refine (link_foldState _ (fun a s => ?_) _ _).trans ?_
    | split

theorem link_ixLoss (n : Nat) (s : State) : (ixLoss n s).link = s.link := by
  unfold ixLoss
  repeat' first
    | with_reducible rfl
    | simp only [link_mk, link_judgeDwell]
    | with_reducible refine (link_foldState _ (fun a s => ?_) _ _).trans ?_
    | split

theorem link_ixTrainGone (n : Nat) (s : State) : (ixTrainGone n s).link = s.link := by
  unfold ixTrainGone
  repeat' first
    | with_reducible rfl
    | simp only [link_mk, link_setRoute, link_idleIfFree, link_giveUp]
    | with_reducible refine (link_foldState _ (fun a s => ?_) _ _).trans ?_
    | split

theorem link_ixClear (x : Nat) (s : State) : (ixClear x s).link = s.link := by
  unfold ixClear
  repeat' first
    | with_reducible rfl
    | simp only [link_mk, link_askReexamine, link_idleIfFree, link_freeSection]
    | split

theorem link_ixPoint (p : Nat) (e : PointEvent) (s : State) : (ixPoint p e s).link = s.link := by
  unfold ixPoint
  repeat' first
    | with_reducible rfl
    | simp only [link_mk, link_askReexamine, link_failRoute, link_testProof]
    | with_reducible refine (link_foldState _ (fun a s => ?_) _ _).trans ?_
    | split

theorem link_ixBridge (s : State) : (ixBridge s).link = s.link := by
  unfold ixBridge
  repeat' first
    | with_reducible rfl
    | simp only [link_mk, link_askReexamine, link_failRoute, link_testProof]
    | with_reducible refine (link_foldState _ (fun a s => ?_) _ _).trans ?_
    | split

theorem link_ixMoveEnded (r : Nat) (s : State) : (ixMoveEnded r s).link = s.link := by
  unfold ixMoveEnded
  repeat' first | with_reducible rfl | simp only [link_mk, link_failRoute] | split

theorem link_routesStop (s : State) : (routesStop s).link = s.link := by
  unfold routesStop
  repeat' first
    | with_reducible rfl
    | simp only [link_mk, link_failRoute]
    | with_reducible refine (link_foldState _ (fun a s => ?_) _ _).trans ?_
    | split

theorem link_dropAllRequests (s : State) : (dropAllRequests s).link = s.link := by
  unfold dropAllRequests
  repeat' first
    | with_reducible rfl
    | simp only [link_mk, link_dropRequest]
    | with_reducible refine (link_foldState _ (fun a s => ?_) _ _).trans ?_
    | split

theorem link_settingExpiry (r : Nat) (s : State) : (settingExpiry r s).link = s.link := by
  unfold settingExpiry
  repeat' first | with_reducible rfl | simp only [link_mk, link_expire, link_failRoute] | split

theorem link_approachExpiry (r : Nat) (s : State) : (approachExpiry r s).link = s.link := by
  unfold approachExpiry
  repeat' first | with_reducible rfl | simp only [link_mk, link_expire, link_releaseToIdle] | split

theorem link_requestExpiry (r : Nat) (s : State) : (requestExpiry r s).link = s.link := by
  unfold requestExpiry
  repeat' first | with_reducible rfl | simp only [link_mk, link_expire, link_dropRequest] | split

theorem link_overlapExpiry (r : Nat) (s : State) : (overlapExpiry r s).link = s.link := by
  unfold overlapExpiry
  repeat' first | with_reducible rfl | simp only [link_mk, link_expire, link_overlapRelease] | split

theorem link_dwellExpiry (r : Nat) (s : State) : (dwellExpiry r s).link = s.link := by
  unfold dwellExpiry
  repeat' first | with_reducible rfl | simp only [link_mk, link_expire, link_overlapRelease] | split

theorem link_cmdRouteSet (r : Nat) (s : State) : (cmdRouteSet r s).1.link = s.link := by
  unfold cmdRouteSet
  repeat' first | with_reducible rfl | simp only [link_mk, link_enterSetting, link_startRequest] | split

theorem link_cmdRouteStore (r : Nat) (s : State) : (cmdRouteStore r s).1.link = s.link := by
  unfold cmdRouteStore; split <;> exact link_of_store ‹_›

theorem link_cmdRouteCan (r : Nat) (s : State) : (cmdRouteCan r s).1.link = s.link := by
  unfold cmdRouteCan
  repeat' first
    | with_reducible rfl
    | simp only [link_mk, link_changeRoute, link_releaseToIdle, link_dropRequest]
    | split

theorem link_changeHolds (n : Nat) (f : TrainRec → TrainRec) (s : State) : (changeHolds n f s).link = s.link := by
  unfold changeHolds
  repeat' first | with_reducible rfl | simp only [link_mk, link_hand, link_setTrain] | split

theorem link_endAmbiguity (x : Nat) (s : State) : (endAmbiguity x s).link = s.link := by
  unfold endAmbiguity
  repeat' first
    | with_reducible rfl
    | simp only [link_mk, link_changeHolds]
    | with_reducible refine (link_foldState _ (fun a s => ?_) _ _).trans ?_
    | split

theorem link_placement (n : Nat) (s : State) : (placement n s).link = s.link := by
  unfold placement
  repeat' first | with_reducible rfl | exact link_of_store ‹_› | (simp only [link_setMark]; exact link_of_store ‹_›) | split

theorem link_ttRequestStarted (r : Nat) (s : State) : (ttRequestStarted r s).link = s.link := by
  unfold ttRequestStarted
  repeat' first
    | with_reducible rfl
    | simp only [link_mk, link_setMark]
    | with_reducible refine (link_foldState _ (fun a s => ?_) _ _).trans ?_
    | split

theorem link_ttRequestDropped (r : Nat) (s : State) : (ttRequestDropped r s).link = s.link := by
  unfold ttRequestDropped
  repeat' first
    | with_reducible rfl
    | simp only [link_mk, link_setMark]
    | with_reducible refine (link_foldState _ (fun a s => ?_) _ _).trans ?_
    | split

theorem link_ttRouteChange (r : Nat) (st : RouteState) (s : State) : (ttRouteChange r st s).link = s.link := by
  unfold ttRouteChange
  repeat' first
    | with_reducible rfl
    | simp only [link_mk, link_hand, link_handAll, link_setTrain, link_setMark]
    | with_reducible refine (link_foldState _ (fun a s => ?_) _ _).trans ?_
    | split

theorem link_passSignal (n g : Nat) (a : Aspect) (s : State) : (passSignal n g a s).link = s.link := by
  unfold passSignal
  repeat' first
    | with_reducible rfl
    | simp only [link_mk, link_report, link_hand, link_setTrain, link_changeHolds]
    | split

theorem link_judgePass (n x : Nat) (e : EndName) (aspect : Nat → Aspect) (s : State) :
    (judgePass n x e aspect s).link = s.link := by
  unfold judgePass
  repeat' first | with_reducible rfl | simp only [link_mk, link_passSignal] | split

theorem link_judgeLost (n : Nat) (s : State) : (judgeLost n s).link = s.link := by
  unfold judgeLost
  repeat' first | with_reducible rfl | simp only [link_mk, link_setTrain] | split

theorem link_removeTrailing (n : Nat) (s : State) : (removeTrailing n s).link = s.link := by
  unfold removeTrailing
  repeat' first | with_reducible rfl | simp only [link_mk, link_hand, link_setTrain, link_ixListChange] | split

theorem link_trimList (k n : Nat) (s : State) : (trimList k n s).link = s.link := by
  induction k generalizing s with
  | zero => rfl
  | succ k ih => unfold trimList; repeat' first | with_reducible rfl | simp only [link_removeTrailing, ih] | split

theorem link_trailing (n : Nat) (s : State) : (trailing n s).link = s.link := by
  unfold trailing
  repeat' first | with_reducible rfl | simp only [link_mk, link_judgeLost, link_trimList] | split

theorem link_claim (n x : Nat) (f : EndName) (aspect : Nat → Aspect) (s : State) :
    (claim n x f aspect s).link = s.link := by
  unfold claim
  repeat' first
    | with_reducible rfl
    | simp only [link_mk, link_report, link_hand, link_setTrain, link_ixAppend, link_endAmbiguity, link_judgePass,
      link_removeTrailing]
    | split

theorem link_markAmbiguous (x : Nat) (ns : List Nat) (s : State) : (markAmbiguous x ns s).link = s.link := by
  unfold markAmbiguous
  repeat' first
    | with_reducible rfl
    | simp only [link_mk, link_report, link_changeHolds]
    | with_reducible refine (link_foldState _ (fun a s => ?_) _ _).trans ?_
    | split

theorem link_settled (n x : Nat) (s : State) : (settled n x s).link = s.link := by
  unfold settled
  repeat' first | with_reducible rfl | simp only [link_mk, link_hand, link_carryPlaced] | split

theorem link_refind (n x : Nat) (s : State) : (refind n x s).link = s.link := by
  unfold refind
  repeat' first
    | with_reducible rfl
    | simp only [link_mk, link_report, link_setTrain, link_ixAppend, link_endAmbiguity, link_judgePass,
      link_settled]
    | split

theorem link_findLost (x : Nat) (s : State) : (findLost x s).link = s.link := by
  unfold findLost
  repeat' first | with_reducible rfl | simp only [link_mk, link_report, link_refind] | split

theorem link_takeSection (x : Nat) (aspect : Nat → Aspect) (s : State) : (takeSection x aspect s).link = s.link := by
  unfold takeSection
  repeat' first | with_reducible rfl | simp only [link_mk, link_claim, link_markAmbiguous, link_findLost] | split

theorem link_trackOccupied (x : Nat) (before : List (Nat × Aspect)) (s : State) :
    (trackOccupied x before s).link = s.link := by
  unfold trackOccupied
  repeat' first | with_reducible rfl | simp only [link_mk, link_setTrain, link_takeSection] | split

theorem link_trackClear (x : Nat) (s : State) : (trackClear x s).link = s.link := by
  unfold trackClear
  repeat' first | with_reducible rfl | simp only [link_mk, link_endAmbiguity, link_trailing] | split

theorem link_dropReplacement (n : Nat) (s : State) : (dropReplacement n s).link = s.link := by
  unfold dropReplacement
  repeat' first | with_reducible rfl | simp only [link_mk] | split

theorem link_lostExpiry (n : Nat) (s : State) : (lostExpiry n s).link = s.link := by
  unfold lostExpiry
  repeat' first
    | with_reducible rfl
    | simp only [link_mk, link_expire, link_report, link_hand, link_dropCarried, link_withdrawRequests, link_ixLoss,
      link_changeHolds, link_dropReplacement]
    | split

theorem link_unplace (n : Nat) (e : TrainEvent) (s : State) : (unplace n e s).link = s.link := by
  unfold unplace
  repeat' first
    | with_reducible rfl
    | simp only [link_mk, link_report, link_hand, link_dropCarried, link_withdrawRequests, link_ixTrainGone,
      link_changeHolds, link_dropReplacement]
    | split

theorem link_completeReversal (n : Nat) (s : State) : (completeReversal n s).link = s.link := by
  unfold completeReversal
  repeat' first
    | with_reducible rfl
    | simp only [link_mk, link_report, link_hand, link_setTrain, link_ixListChange, link_changeHolds, link_trailing]
    | split

theorem link_ttStepChange (n : Nat) (s : State) : (ttStepChange n s).link = s.link := by
  unfold ttStepChange
  repeat' first | with_reducible rfl | simp only [link_mk, link_completeReversal] | split

theorem link_freezeTracking (s : State) : (freezeTracking s).link = s.link := by
  unfold freezeTracking
  repeat' first | with_reducible rfl | simp only [link_mk] | split

theorem link_resumption (s : State) : (resumption s).link = s.link := by
  unfold resumption
  repeat' first
    | with_reducible rfl
    | simp only [link_mk, link_handAll, link_setTrain, link_refreshSignals, link_judgeLost, link_trailing]
    | with_reducible refine (link_foldState _ (fun a s => ?_) _ _).trans ?_
    | split

theorem link_cmdTrainPlace (n x : Nat) (e : Option EndName) (s : State) :
    (cmdTrainPlace n x e s).1.link = s.link := by
  unfold cmdTrainPlace
  repeat' first
    | with_reducible rfl
    | simp only [link_mk, link_report, link_ixAppend, link_changeHolds, link_endAmbiguity, link_judgeLost,
      link_settled]
    | split

theorem link_cmdTrainRemove (n : Nat) (s : State) : (cmdTrainRemove n s).1.link = s.link := by
  unfold cmdTrainRemove
  repeat' first | with_reducible rfl | simp only [link_mk, link_unplace] | split

theorem link_cmdTrainSpeed (n v : Nat) (s : State) : (cmdTrainSpeed n v s).1.link = s.link := by
  unfold cmdTrainSpeed
  repeat' first | with_reducible rfl | simp only [link_mk, link_setTrain] | split

theorem link_cmdTrainReverse (n : Nat) (s : State) : (cmdTrainReverse n s).1.link = s.link := by
  unfold cmdTrainReverse
  repeat' first | with_reducible rfl | simp only [link_mk, link_changeHolds, link_completeReversal] | split

theorem link_resolveAmbiguity (n x : Nat) (s : State) : (resolveAmbiguity n x s).link = s.link := by
  unfold resolveAmbiguity
  repeat' first | with_reducible rfl | simp only [link_mk, link_endAmbiguity, link_claim] | split

theorem link_cmdTrainRelease (n : Nat) (s : State) : (cmdTrainRelease n s).1.link = s.link := by
  unfold cmdTrainRelease
  repeat' first
    | with_reducible rfl
    | simp only [link_mk, link_report, link_changeHolds, link_resolveAmbiguity]
    | split

theorem link_cmdTrainRunlist (n : Nat) (mode : RunMode) (routes : List Nat) (s : State) :
    (cmdTrainRunlist n mode routes s).1.link = s.link := by
  unfold cmdTrainRunlist
  repeat' first | with_reducible rfl | simp only [link_mk, link_hand, link_setTrain, link_withdrawRequests] | split

theorem link_onShowTrain (w : ShowRec) (f : Nat → State → State) (h : ∀ n s, (f n s).link = s.link) (s : State) :
    (onShowTrain w f s).link = s.link := by
  unfold onShowTrain; repeat' first | with_reducible rfl | simp only [h] | split

theorem link_setDemand (v n : Nat) (s : State) : (setDemand v n s).link = s.link := by
  unfold setDemand
  repeat' first | with_reducible rfl | simp only [link_mk, link_setTrain] | split

theorem link_setShowWait (v : Bool) (n : Nat) (s : State) : (setShowWait v n s).link = s.link := by
  unfold setShowWait
  repeat' first | with_reducible rfl | simp only [link_mk, link_changeHolds] | split

theorem link_unwait (s : State) (n : Nat) : (State.unwait s n).link = s.link := by
  unfold State.unwait
  repeat' first | with_reducible rfl | simp only [link_mk] | split

theorem link_changeShow (n : Nat) (st : ShowState) (f : ShowRec → ShowRec) (s : State) :
    (changeShow n st f s).link = s.link := by
  unfold changeShow
  repeat' first | with_reducible rfl | simp only [link_mk, link_report, link_setShow] | split

theorem link_judgeAvailable (n : Nat) (s : State) : (judgeAvailable n s).link = s.link := by
  unfold judgeAvailable
  repeat' first | with_reducible rfl | simp only [link_mk, link_unwait, link_changeShow] | split

theorem link_enterDwell (n : Nat) (w : ShowRec) (s : State) : (enterDwell n w s).link = s.link := by
  unfold enterDwell
  repeat' first | with_reducible rfl | simp only [link_mk, link_hand, link_setShow] | split

theorem link_enterRun (n : Nat) (w : ShowRec) (s : State) : (enterRun n w s).link = s.link := by
  unfold enterRun
  repeat' first
    | with_reducible rfl
    | simp only [link_mk, link_setShow, link_setDemand, link_setShowWait]
    | with_reducible refine (link_onShowTrain _ _ (fun n s => ?_) _).trans ?_
    | split

theorem link_setStorePending (n : Nat) (v : Bool) (s : State) : (setStorePending n v s).link = s.link := by
  unfold setStorePending
  repeat' first | with_reducible rfl | simp only [link_mk, link_setShow] | split

theorem link_storeLeg (n r : Nat) (w : ShowRec) (s : State) : (storeLeg n r w s).link = s.link := by
  unfold storeLeg
  split
  all_goals
    first
    | exact link_of_store ‹_›
    | (simp only [link_setStorePending]; exact link_of_store ‹_›)
    | (split <;> simp only [link_enterRun, link_setStorePending] <;> exact link_of_store ‹_›)

theorem link_enterRouteWait (n r : Nat) (w : ShowRec) (s : State) : (enterRouteWait n r w s).link = s.link := by
  unfold enterRouteWait
  repeat' first
    | with_reducible rfl
    | simp only [link_mk, link_setShow, link_setDemand, link_setShowWait, link_storeLeg]
    | with_reducible refine (link_onShowTrain _ _ (fun n s => ?_) _).trans ?_
    | split

theorem link_beginLeg (n i : Nat) (s : State) : (beginLeg n i s).link = s.link := by
  unfold beginLeg
  repeat' first
    | with_reducible rfl
    | simp only [link_mk, link_report, link_setShow, link_enterDwell, link_enterRouteWait]
    | split

theorem link_takeDriver (n t : Nat) (s : State) : (takeDriver n t s).link = s.link := by
  unfold takeDriver
  repeat' first | with_reducible rfl | simp only [link_mk, link_setTrain, link_withdrawRequests] | split

theorem link_startShow (n : Nat) (w : ShowRec) (s : State) : (startShow n w s).link = s.link := by
  unfold startShow
  repeat' first
    | with_reducible rfl
    | simp only [link_mk, link_unwait, link_changeShow, link_beginLeg, link_takeDriver]
    | with_reducible refine (link_onShowTrain _ _ (fun n s => ?_) _).trans ?_
    | split

theorem link_visitShow (n : Nat) (s : State) : (visitShow n s).link = s.link := by
  unfold visitShow
  repeat' first | with_reducible rfl | simp only [link_mk, link_startShow] | split

theorem link_judgeStart (s : State) : (judgeStart s).link = s.link := by
  unfold judgeStart
  repeat' first
    | with_reducible rfl
    | simp only [link_mk, link_visitShow]
    | with_reducible refine (link_foldState _ (fun a s => ?_) _ _).trans ?_
    | split

theorem link_pressShow (n : Nat) (s : State) : (pressShow n s).link = s.link := by
  unfold pressShow
  repeat' first | with_reducible rfl | simp only [link_mk, link_hand, link_changeShow] | split

theorem link_returnDriver (n t : Nat) (s : State) : (returnDriver n t s).link = s.link := by
  unfold returnDriver
  repeat' first | with_reducible rfl | simp only [link_mk, link_hand, link_changeHolds] | split

theorem link_completeShow (n : Nat) (w : ShowRec) (s : State) : (completeShow n w s).link = s.link := by
  unfold completeShow
  repeat' first
    | with_reducible rfl
    | simp only [link_mk, link_hand, link_changeShow, link_returnDriver]
    | with_reducible refine (link_onShowTrain _ _ (fun n s => ?_) _).trans ?_
    | split

theorem link_abortShow (n : Nat) (cause : AbortCause) (s : State) : (abortShow n cause s).link = s.link := by
  unfold abortShow
  repeat' first
    | with_reducible rfl
    | simp only [link_mk, link_report, link_hand, link_setShow, link_withdrawRequests, link_returnDriver]
    | with_reducible refine (link_onShowTrain _ _ (fun n s => ?_) _).trans ?_
    | split

theorem link_endLeg (n : Nat) (w : ShowRec) (s : State) : (endLeg n w s).link = s.link := by
  unfold endLeg
  repeat' first | with_reducible rfl | simp only [link_mk, link_beginLeg, link_completeShow] | split

theorem link_endTurn (n : Nat) (w : ShowRec) (s : State) : (endTurn n w s).link = s.link := by
  unfold endTurn
  simp only [link_endLeg, link_setShow]
  apply link_onShowTrain
  intro t s
  repeat' first | with_reducible rfl | simp only [link_completeReversal, link_changeHolds] | split

theorem link_dwellOver (n : Nat) (s : State) : (dwellOver n s).link = s.link := by
  unfold dwellOver
  dsimp only
  repeat' first
    | with_reducible rfl
    | (simp only [link_setShow, link_endLeg, link_abortShow]; done)
    | (simp only [link_endTurn]; rw [link_requestMove ‹_›, link_setShow])
    | (rw [link_requestMove ‹_›, link_setShow])
    | split

theorem link_judgeArrival (t n : Nat) (s : State) : (judgeArrival t n s).link = s.link := by
  unfold judgeArrival
  repeat' first | with_reducible rfl | simp only [link_mk, link_setShow, link_setDemand, link_enterDwell] | split

theorem link_judgeArrivals (t : Nat) (s : State) : (judgeArrivals t s).link = s.link := by
  unfold judgeArrivals
  repeat' first
    | with_reducible rfl
    | simp only [link_mk, link_judgeArrival]
    | with_reducible refine (link_foldState _ (fun a s => ?_) _ _).trans ?_
    | split

theorem link_showRoute (r : Nat) (st : RouteState) (n : Nat) (s : State) : (showRoute r st n s).link = s.link := by
  unfold showRoute
  repeat' first
    | with_reducible rfl
    | simp only [link_mk, link_setShow, link_enterRun, link_storeLeg, link_enterRouteWait]
    | split

theorem link_vuRouteChange (r : Nat) (st : RouteState) (s : State) : (vuRouteChange r st s).link = s.link := by
  unfold vuRouteChange
  repeat' first
    | with_reducible rfl
    | simp only [link_mk, link_showRoute]
    | with_reducible refine (link_foldState _ (fun a s => ?_) _ _).trans ?_
    | split

theorem link_vuRouteFail (r : Nat) (s : State) : (vuRouteFail r s).link = s.link := by
  unfold vuRouteFail
  repeat' first
    | with_reducible rfl
    | simp only [link_mk, link_abortShow]
    | with_reducible refine (link_foldState _ (fun a s => ?_) _ _).trans ?_
    | split

theorem link_vuRequestDropped (n r : Nat) (cause : RequestDrop) (s : State) :
    (vuRequestDropped n r cause s).link = s.link := by
  unfold vuRequestDropped
  repeat' first | with_reducible rfl | simp only [link_mk, link_abortShow] | split

theorem link_vuMoveEnded (n : Nat) (out : MoveOutcome) (s : State) : (vuMoveEnded n out s).link = s.link := by
  unfold vuMoveEnded
  repeat' first | with_reducible rfl | simp only [link_mk, link_abortShow, link_endTurn] | split

theorem link_vuTrainChange (t : Nat) (e : TrainEvent) (s : State) : (vuTrainChange t e s).link = s.link := by
  unfold vuTrainChange
  repeat' first
    | with_reducible rfl
    | simp only [link_mk, link_hand, link_judgeAvailable, link_abortShow]
    | with_reducible refine (link_foldState _ (fun a s => ?_) _ _).trans ?_
    | split

theorem link_vuPassedStop (t : Nat) (s : State) : (vuPassedStop t s).link = s.link := by
  unfold vuPassedStop
  repeat' first | with_reducible rfl | simp only [link_mk, link_abortShow] | split

theorem link_vuStepChange (t : Nat) (s : State) : (vuStepChange t s).link = s.link := by
  unfold vuStepChange
  repeat' first | with_reducible rfl | simp only [link_mk, link_hand, link_setTrain, link_judgeArrivals] | split

theorem link_showsStop (s : State) : (showsStop s).link = s.link := by
  unfold showsStop
  repeat' first
    | with_reducible rfl
    | simp only [link_mk, link_abortShow]
    | with_reducible refine (link_foldState _ (fun a s => ?_) _ _).trans ?_
    | split

theorem link_legExpiry (n : Nat) (s : State) : (legExpiry n s).link = s.link := by
  unfold legExpiry
  repeat' first | with_reducible rfl | simp only [link_mk, link_expire, link_abortShow] | split

theorem link_showDwellExpiry (n : Nat) (s : State) : (showDwellExpiry n s).link = s.link := by
  unfold showDwellExpiry
  repeat' first | with_reducible rfl | simp only [link_mk, link_expire, link_dwellOver] | split

theorem link_coolExpiry (n : Nat) (s : State) : (coolExpiry n s).link = s.link := by
  unfold coolExpiry
  repeat' first | with_reducible rfl | simp only [link_mk, link_expire, link_changeShow] | split

theorem link_cmdShowEnable (n : Nat) (s : State) : (cmdShowEnable n s).1.link = s.link := by
  unfold cmdShowEnable
  repeat' first | with_reducible rfl | simp only [link_mk, link_setShow, link_judgeAvailable] | split

theorem link_cmdShowDisable (n : Nat) (s : State) : (cmdShowDisable n s).1.link = s.link := by
  unfold cmdShowDisable
  repeat' first | with_reducible rfl | simp only [link_mk, link_setShow, link_judgeAvailable, link_abortShow] | split

theorem link_cmdShowAbort (n : Nat) (s : State) : (cmdShowAbort n s).1.link = s.link := by
  unfold cmdShowAbort
  repeat' first | with_reducible rfl | simp only [link_mk, link_unwait, link_changeShow, link_abortShow] | split

theorem link_cmdTrainTake (n : Nat) (s : State) : (cmdTrainTake n s).1.link = s.link := by
  unfold cmdTrainTake
  repeat' first | with_reducible rfl | simp only [link_mk, link_abortShow] | split

theorem link_setBoard (s : State) (b : Nat) (f : Board → Board) : (State.setBoard s b f).link = s.link := by
  unfold State.setBoard
  repeat' first | with_reducible rfl | simp only [link_mk] | split

theorem link_setLine (s : State) (b l : Nat) (f : BoardLine → BoardLine) : (State.setLine s b l f).link = s.link := by
  unfold State.setLine
  repeat' first | with_reducible rfl | simp only [link_mk, link_setBoard] | split

theorem link_queueLine (b l : Nat) (s : State) : (queueLine b l s).link = s.link := by
  unfold queueLine
  repeat' first | with_reducible rfl | simp only [link_mk] | split

theorem link_unqueueLine (s : State) (b l : Nat) : (State.unqueueLine s b l).link = s.link := by
  unfold State.unqueueLine
  repeat' first | with_reducible rfl | simp only [link_mk] | split

theorem link_sendFrame (f : Frame) (s : State) : (sendFrame f s).link = s.link := by
  unfold sendFrame
  repeat' first | with_reducible rfl | simp only [link_mk] | split

theorem link_idleLink (s : State) : (idleLink s).link = s.link := by
  unfold idleLink
  repeat' first | with_reducible rfl | simp only [link_mk] | split

theorem link_sendOldest (l : List (Nat × Nat)) (s : State) : (sendOldest l s).link = s.link := by
  induction l generalizing s with
  | nil => rfl
  | cons e rest ih =>
    obtain ⟨b, l⟩ := e
    unfold sendOldest
    repeat' first | with_reducible rfl | simp only [link_unqueueLine, link_sendFrame, ih] | split

theorem link_chooseTransfer (s : State) : (chooseTransfer s).link = s.link := by
  unfold chooseTransfer
  repeat' first | with_reducible rfl | simp only [link_mk, link_setBoard, link_sendFrame, link_sendOldest] | split

theorem link_judgeLine (b l : Nat) (s : State) : (judgeLine b l s).link = s.link := by
  unfold judgeLine
  repeat' first | with_reducible rfl | simp only [link_mk, link_queueLine, link_chooseTransfer] | split

theorem link_readSteps (s : State) : (readSteps s).link = s.link := by
  unfold readSteps
  repeat' first | with_reducible rfl | simp only [link_mk] | split

theorem link_judgeLines (s : State) : (judgeLines s).link = s.link := by
  unfold judgeLines
  repeat' first
    | with_reducible rfl
    | simp only [link_mk, link_reach, link_judgeLine, link_readSteps]
    | with_reducible refine (link_foldState _ (fun a s => ?_) _ _).trans ?_
    | split

theorem link_boardOffline (b : Nat) (s : State) : (boardOffline b s).link = s.link := by
  unfold boardOffline
  repeat' first | with_reducible rfl | simp only [link_mk, link_report, link_setBoard] | split

theorem link_boardOnline (b : Nat) (s : State) : (boardOnline b s).link = s.link := by
  unfold boardOnline
  repeat' first
    | with_reducible rfl
    | simp only [link_mk, link_report, link_setBoard, link_queueLine]
    | with_reducible refine (link_foldState _ (fun a s => ?_) _ _).trans ?_
    | split

theorem link_frameOutcome (f : Frame) (a : Answer) (s : State) : (frameOutcome f a s).link = s.link := by
  unfold frameOutcome
  repeat' first
    | with_reducible rfl
    | simp only [link_mk, link_setBoard, link_setLine, link_queueLine, link_unqueueLine, link_sendFrame,
      link_idleLink, link_boardOffline, link_boardOnline]
    | split

theorem link_frameSent (s : State) : (frameSent s).link = s.link := by
  unfold frameSent
  repeat' first | with_reducible rfl | simp only [link_mk] | split

theorem link_replyFrame (bytes : List Byte) (s : State) : (replyFrame bytes s).link = s.link := by
  unfold replyFrame
  repeat' first | with_reducible rfl | simp only [link_mk, link_frameOutcome] | split

theorem link_replyTimeout (s : State) : (replyTimeout s).link = s.link := by
  unfold replyTimeout
  repeat' first | with_reducible rfl | simp only [link_mk, link_reach, link_frameOutcome] | split

theorem link_probeExpiry (b : Nat) (s : State) : (probeExpiry b s).link = s.link := by
  unfold probeExpiry
  repeat' first | with_reducible rfl | simp only [link_mk, link_expire, link_setBoard] | split

theorem link_setSource (b l : Nat) (src : LineSource) (s : State) : (setSource b l src s).link = s.link := by
  unfold setSource
  repeat' first | with_reducible rfl | simp only [link_mk, link_setLine, link_judgeLine, link_readSteps] | split

theorem link_cmdBoardText (b l : Nat) (t : Text) (s : State) : (cmdBoardText b l t s).1.link = s.link := by
  unfold cmdBoardText
  repeat' first | with_reducible rfl | simp only [link_mk, link_setSource] | split

theorem link_cmdBoardSource (b l : Nat) (w : SourceWord) (s : State) : (cmdBoardSource b l w s).1.link = s.link := by
  unfold cmdBoardSource
  repeat' first | with_reducible rfl | simp only [link_mk, link_setSource] | split

theorem link_mapChannels (f : Nat → Channel → Channel) (s : State) : (mapChannels f s).link = s.link := by
  unfold mapChannels
  repeat' first | with_reducible rfl | simp only [link_mk] | split

theorem link_reviseOutputs (before s : State) : (reviseOutputs before s).link = s.link := by
  unfold reviseOutputs
  repeat' first | with_reducible rfl | simp only [link_mk, link_mapChannels] | split

theorem link_loadPeriod (s : State) : (loadPeriod s).link = s.link := by
  unfold loadPeriod
  repeat' first | with_reducible rfl | simp only [link_mk, link_mapChannels] | split

theorem link_counterZero (s : State) : (counterZero s).link = s.link := by
  unfold counterZero
  repeat' first | with_reducible rfl | simp only [link_mk, link_reach, link_mapChannels, link_loadPeriod] | split

theorem link_setReplacements (s : State) : (setReplacements s).link = s.link := by
  unfold setReplacements
  repeat' first | with_reducible rfl | simp only [link_mk] | split

theorem link_rampTrains (s : State) : (rampTrains s).link = s.link := by
  unfold rampTrains
  repeat' first | with_reducible rfl | simp only [link_mk] | split

theorem link_judgeConflict (n : Nat) (s : State) : (judgeConflict n s).link = s.link := by
  unfold judgeConflict
  repeat' first | with_reducible rfl | simp only [link_mk, link_report, link_changeHolds] | split

theorem link_runTick (s : State) : (runTick s).link = s.link := by
  unfold runTick
  repeat' first
    | with_reducible rfl
    | simp only [link_mk, link_handAll, link_mapChannels, link_setReplacements, link_rampTrains, link_judgeConflict]
    | with_reducible refine (link_foldState _ (fun a s => ?_) _ _).trans ?_
    | split

theorem link_stopTrains (s : State) : (stopTrains s).link = s.link := by
  unfold stopTrains
  repeat' first | with_reducible rfl | simp only [link_mk] | split

theorem link_stoppedTick (s : State) : (stoppedTick s).link = s.link := by
  unfold stoppedTick
  repeat' first | with_reducible rfl | simp only [link_mk, link_mapChannels, link_stopTrains] | split

theorem link_configTick (s : State) : (configTick s).link = s.link := by
  unfold configTick
  repeat' first | with_reducible rfl | simp only [link_mk, link_mapChannels] | split

theorem link_governorTick (s : State) : (governorTick s).link = s.link := by
  unfold governorTick
  repeat' first | with_reducible rfl | simp only [link_mk, link_runTick, link_stoppedTick, link_configTick] | split

theorem link_driveStop (before s : State) : (driveStop before s).link = s.link := by
  unfold driveStop
  repeat' first | with_reducible rfl | simp only [link_mk, link_handAll, link_reviseOutputs, link_stopTrains] | split

theorem link_cmdTimebase (p : Nat) (s : State) : (cmdTimebase p s).1.link = s.link := by
  unfold cmdTimebase
  repeat' first | with_reducible rfl | simp only [link_mk] | split

theorem link_setForce (c : Nat) (f : Force) (s : State) : (setForce c f s).link = s.link := by
  unfold setForce
  repeat' first | with_reducible rfl | simp only [link_mk, link_mapChannels] | split

theorem link_cmdChanForce (c : Nat) (f : Option Force) (s : State) : (cmdChanForce c f s).1.link = s.link := by
  unfold cmdChanForce
  repeat' first | with_reducible rfl | simp only [link_mk, link_reviseOutputs, link_setForce] | split

theorem link_conditionChanged (s : State) : (conditionChanged s).link = s.link := by
  unfold conditionChanged
  repeat' first
    | with_reducible rfl
    | simp only [link_mk, link_considerPulse, link_reexamine, link_freezeTracking]
    | split

theorem link_trackerStop (s : State) : (trackerStop s).link = s.link := by
  unfold trackerStop
  repeat' first | with_reducible rfl | simp only [link_mk] | split

theorem link_handle (n : Notice) (s : State) : (handle n s).link = s.link := by
  unfold handle
  repeat' first
    | with_reducible rfl
    | simp only [link_mk, link_hand, link_pointsStop, link_refreshSignals, link_turntableStop, link_reexamine,
      link_judgeDwell, link_ixClear, link_ixPoint, link_ixBridge, link_ixMoveEnded, link_routesStop, link_placement,
      link_ttRequestStarted, link_ttRequestDropped, link_ttRouteChange, link_trackOccupied, link_trackClear,
      link_ttStepChange, link_resumption, link_judgeStart, link_dwellOver, link_judgeArrivals, link_vuRouteChange,
      link_vuRouteFail, link_vuRequestDropped, link_vuMoveEnded, link_vuTrainChange, link_vuPassedStop,
      link_vuStepChange, link_showsStop, link_conditionChanged, link_trackerStop]
    | with_reducible refine (link_foldState _ (fun a s => ?_) _ _).trans ?_
    | split

theorem link_settleStep (s : State) : (settleStep s).link = s.link := by
  unfold settleStep
  repeat' first | with_reducible rfl | simp only [link_mk, link_handle] | split

theorem link_settleFrom (k : Nat) (s : State) : (settleFrom k s).link = s.link := by
  induction k generalizing s with
  | zero => rfl
  | succ k ih => unfold settleFrom; repeat' first | with_reducible rfl | simp only [link_settleStep, ih] | split

theorem link_settle (s : State) : (settle s).link = s.link := by
  unfold settle
  repeat' first | with_reducible rfl | simp only [link_mk, link_settleFrom] | split

theorem link_arrival (f : State → State) (h : ∀ s, (f s).link = s.link) (s : State) :
    (arrival f s).link = s.link := by
  simp only [arrival, link_settleSignals, link_settle, h]

theorem link_arrivalReply (f : State → State × Reply) (h : ∀ s, (f s).1.link = s.link) (s : State) :
    (arrivalReply f s).1.link = s.link := by
  simp only [arrivalReply, link_settleSignals, link_settle, h]

theorem link_activateStop (cause : StopCause) (s : State) : (activateStop cause s).link = s.link := by
  unfold activateStop
  repeat' first | with_reducible rfl | simp only [link_mk, link_report, link_handAll, link_driveStop] | split

theorem link_setChain (s : State) (f : Chain → Chain) : (State.setChain s f).link = s.link := by
  unfold State.setChain
  repeat' first | with_reducible rfl | simp only [link_mk] | split

theorem link_setLive (s : State) (k : Nat) (f : TerminalLive → TerminalLive) :
    (State.setLive s k f).link = s.link := by
  unfold State.setLive
  repeat' first | with_reducible rfl | simp only [link_mk, link_setChain] | split

theorem link_setModule (s : State) (m : Nat) (f : ModuleRec → ModuleRec) : (State.setModule s m f).link = s.link := by
  unfold State.setModule
  repeat' first | with_reducible rfl | simp only [link_mk, link_setChain] | split

theorem link_startCapture (s : State) : (startCapture s).link = s.link := by
  unfold startCapture
  repeat' first | with_reducible rfl | simp only [link_mk, link_setChain] | split

theorem link_scanExpiry (s : State) : (scanExpiry s).link = s.link := by
  unfold scanExpiry
  repeat' first | with_reducible rfl | simp only [link_mk, link_reach, link_setChain, link_startCapture] | split

theorem link_captureDone (s : State) : (captureDone s).link = s.link := by
  unfold captureDone
  repeat' first | with_reducible rfl | simp only [link_mk, link_setChain] | split

theorem link_changeScanMode (s : State) : (changeScanMode s).link = s.link := by
  unfold changeScanMode
  repeat' first | with_reducible rfl | simp only [link_mk, link_report, link_setChain] | split

theorem link_updateComplete (s : State) : (updateComplete s).link = s.link := by
  unfold updateComplete
  repeat' first
    | with_reducible rfl
    | simp only [link_mk, link_pointsUpdate, link_setChain, link_startCapture, link_changeScanMode]
    | with_reducible refine (link_arrival _ (fun s => ?_) _).trans ?_
    | split

theorem link_flashToggle (s : State) : (flashToggle s).link = s.link := by
  unfold flashToggle
  repeat' first | with_reducible rfl | simp only [link_mk, link_reach, link_setChain] | split

theorem link_takeAux (a : Nat) (v : Bool) (s : State) : (takeAux a v s).link = s.link := by
  unfold takeAux; split
  · rfl
  · rw [link_report]; rfl

theorem link_ownerTakes (t : TermId) (r : Role) (was v : Option Bool) (s : State) :
    (ownerTakes t r was v s).link = s.link := by
  unfold ownerTakes
  repeat' first
    | with_reducible rfl
    | simp only [link_mk, link_refreshSection, link_refreshPoint, link_pressShow, link_activateStop, link_takeAux]
    | split

theorem link_handValue (k : Nat) (v : Option Bool) (s : State) : (handValue k v s).link = s.link := by
  unfold handValue
  repeat' first
    | with_reducible rfl
    | simp only [link_mk, link_setLive, link_ownerTakes]
    | with_reducible refine (link_arrival _ (fun s => ?_) _).trans ?_
    | split

theorem link_unqualify (k : Nat) (s : State) : (unqualify k s).link = s.link := by
  unfold unqualify
  repeat' first | with_reducible rfl | simp only [link_mk, link_setLive, link_handValue] | split

theorem link_changeCondition (c : Condition) (reps : List Report) (s : State) :
    (changeCondition c reps s).link = s.link := by
  unfold changeCondition
  repeat' first
    | with_reducible rfl
    | simp only [link_mk, link_report, link_hand, link_setChain]
    | with_reducible refine (link_foldState _ (fun a s => ?_) _ _).trans ?_
    | with_reducible refine (link_arrival _ (fun s => ?_) _).trans ?_
    | split

theorem link_chainReset (s : State) : (chainReset s).link = s.link := by
  unfold chainReset
  repeat' first
    | with_reducible rfl
    | simp only [link_mk, link_coilsCleared, link_setChain, link_handValue, link_changeCondition]
    | with_reducible refine (link_foldState _ (fun a s => ?_) _ _).trans ?_
    | with_reducible refine (link_arrival _ (fun s => ?_) _).trans ?_
    | split

theorem link_enterHalted (f : ChainFault) (s : State) : (enterHalted f s).link = s.link := by
  unfold enterHalted
  repeat' first
    | with_reducible rfl
    | simp only [link_mk, link_coilsCleared, link_setChain, link_handValue, link_changeCondition]
    | with_reducible refine (link_foldState _ (fun a s => ?_) _ _).trans ?_
    | with_reducible refine (link_arrival _ (fun s => ?_) _).trans ?_
    | split

theorem link_retryExpiry (s : State) : (retryExpiry s).link = s.link := by
  unfold retryExpiry
  repeat' first | with_reducible rfl | simp only [link_mk, link_expire, link_chainReset] | split

theorem link_cmdChainReset (s : State) : (cmdChainReset s).1.link = s.link := by
  unfold cmdChainReset
  repeat' first | with_reducible rfl | simp only [link_mk, link_chainReset] | split

theorem link_cmdChainMode (m : ScanMode) (s : State) : (cmdChainMode m s).1.link = s.link := by
  unfold cmdChainMode
  repeat' first | with_reducible rfl | simp only [link_mk, link_setChain] | split

theorem link_resetEnd (s : State) : (resetEnd s).link = s.link := by
  unfold resetEnd
  repeat' first | with_reducible rfl | simp only [link_mk, link_expire, link_setChain] | split

theorem link_enumerationMatched (s : State) : (enumerationMatched s).link = s.link := by
  unfold enumerationMatched
  repeat' first | with_reducible rfl | simp only [link_mk, link_setChain, link_changeCondition] | split

theorem link_enumerationWord (cells : List Bool) (s : State) : (enumerationWord cells s).link = s.link := by
  unfold enumerationWord
  repeat' first
    | with_reducible rfl
    | simp only [link_mk, link_setChain, link_enterHalted, link_enumerationMatched]
    | split

theorem link_moduleFaulty (m : Nat) (s : State) : (moduleFaulty m s).link = s.link := by
  unfold moduleFaulty
  repeat' first
    | with_reducible rfl
    | simp only [link_mk, link_report, link_setChain, link_setModule, link_unqualify]
    | with_reducible refine (link_foldState _ (fun a s => ?_) _ _).trans ?_
    | split

theorem link_echoModule (l : Nat) (cells : List Bool) (m : Nat) (s : State) :
    (echoModule l cells m s).link = s.link := by
  unfold echoModule
  repeat' first | with_reducible rfl | simp only [link_mk, link_report, link_setModule, link_moduleFaulty] | split

theorem link_qualifyTerminal (n : Nat) (cells : List Bool) (k : Nat) (s : State) :
    (qualifyTerminal n cells k s).link = s.link := by
  unfold qualifyTerminal
  repeat' first | with_reducible rfl | simp only [link_mk, link_setLive, link_handValue] | split

theorem link_handQualified (k : Nat) (s : State) : (handQualified k s).link = s.link := by
  unfold handQualified
  repeat' first | with_reducible rfl | simp only [link_mk, link_setLive, link_handValue] | split

theorem link_settlingComplete (s : State) : (settlingComplete s).link = s.link := by
  unfold settlingComplete
  repeat' first
    | with_reducible rfl
    | simp only [link_mk, link_hand, link_changeCondition, link_handQualified]
    | with_reducible refine (link_foldState _ (fun a s => ?_) _ _).trans ?_
    | with_reducible refine (link_arrival _ (fun s => ?_) _).trans ?_
    | split

theorem link_shiftEnd (cells : List Bool) (s : State) : (shiftEnd cells s).link = s.link := by
  have h1 : ∀ (f : Nat → State → State) (_ : ∀ a s, (f a s).link = s.link) (l : List Nat) (s t : State),
      s.link = t.link → (foldState f l s).link = t.link := by
    intro f hf l s t h; rw [link_foldState f hf, h]
  unfold shiftEnd
  dsimp only
  split
  · split
    · rw [link_setChain]
      have key := h1 _ (link_qualifyTerminal s.chainLength cells)
        ((((List.range s.chainLength).filter (s.expire s.fc.seqDue).moduleHealthy).filter
          ((List.range s.chainLength).filter
            (foldState (echoModule s.chainLength cells) (List.range s.chainLength) (s.expire s.fc.seqDue)).moduleHealthy).contains).flatMap
          moduleTerminals) _ _ (h1 _ (link_echoModule s.chainLength cells) (List.range s.chainLength) _ _
            (link_expire s s.fc.seqDue))
      split
      · rw [link_settlingComplete]; exact key
      · exact key
    · rw [link_enterHalted, link_expire]
  · rfl

theorem link_enterRunMode (s : State) : (enterRunMode s).link = s.link := by
  unfold enterRunMode
  repeat' first
    | with_reducible rfl
    | simp only [link_mk, link_report, link_judgeAvailable, link_mapChannels, link_reviseOutputs, link_setChain]
    | with_reducible refine (link_foldState _ (fun a s => ?_) _ _).trans ?_
    | split

theorem link_cmdModeRun (s : State) : (cmdModeRun s).1.link = s.link := by
  unfold cmdModeRun
  repeat' first | with_reducible rfl | simp only [link_mk, link_enterRunMode] | split

theorem link_endShow (n : Nat) (s : State) : (endShow n s).link = s.link := by
  unfold endShow
  repeat' first | with_reducible rfl | simp only [link_mk, link_report, link_setShow, link_withdrawRequests] | split

theorem link_leaveRun (s : State) : (leaveRun s).link = s.link := by
  unfold leaveRun
  repeat' first
    | with_reducible rfl
    | simp only [link_mk, link_dropAllRequests, link_unplace, link_mapChannels, link_reviseOutputs, link_endShow]
    | with_reducible refine (link_foldState _ (fun a s => ?_) _ _).trans ?_
    | split

theorem link_enterConfig (s : State) : (enterConfig s).link = s.link := by
  unfold enterConfig
  repeat' first
    | with_reducible rfl
    | simp only [link_mk, link_report, link_chainReset, link_leaveRun]
    | with_reducible refine (link_arrival _ (fun s => ?_) _).trans ?_
    | split

theorem link_cmdModeConfig (s : State) : (cmdModeConfig s).1.link = s.link := by
  unfold cmdModeConfig
  repeat' first | with_reducible rfl | simp only [link_mk, link_enterConfig] | split

theorem link_cmdEstop (s : State) : (cmdEstop s).1.link = s.link := by
  unfold cmdEstop
  repeat' first | with_reducible rfl | simp only [link_mk, link_activateStop] | split

theorem link_endStop (s : State) : (endStop s).link = s.link := by
  unfold endStop
  repeat' first | with_reducible rfl | simp only [link_mk, link_report, link_handAll, link_reviseOutputs] | split

theorem link_cmdResume (s : State) : (cmdResume s).1.link = s.link := by
  unfold cmdResume
  repeat' first | with_reducible rfl | simp only [link_mk, link_endStop] | split

theorem link_loopChange (v : LoopValue) (s : State) : (loopChange v s).link = s.link := by
  unfold loopChange
  repeat' first | with_reducible rfl | simp only [link_mk, link_activateStop] | split

theorem link_cmdSave (s : State) : (cmdSave s).1.link = s.link := by
  unfold cmdSave
  repeat' first | with_reducible rfl | simp only [link_mk] | split

theorem link_saveEnd (good : Bool) (s : State) : (saveEnd good s).link = s.link := by
  unfold saveEnd
  repeat' first | with_reducible rfl | simp only [link_mk, link_report] | split

theorem link_autorun (s : State) : (autorun s).link = s.link := by
  unfold autorun
  repeat' first
    | with_reducible rfl
    | simp only [link_mk, link_report, link_enterRunMode]
    | with_reducible refine (link_arrival _ (fun s => ?_) _).trans ?_
    | split

theorem link_cmdReset (s : State) : (cmdReset s).1.link = s.link := by
  unfold cmdReset
  repeat' first | with_reducible rfl | simp only [link_mk] | split

theorem link_reownTerminal (k : Nat) (old : TerminalCfg) (s : State) : (reownTerminal k old s).link = s.link := by
  unfold reownTerminal
  repeat' first
    | with_reducible rfl
    | simp only [link_mk, link_refreshSection, link_refreshPoint, link_setLive, link_ownerTakes]
    | split

theorem link_putTerminal (k : Nat) (c : TerminalCfg) (s : State) : (putTerminal k c s).link = s.link := by
  unfold putTerminal
  repeat' first | with_reducible rfl | simp only [link_mk, link_setChain, link_reownTerminal] | split

theorem link_dropTerminal (k : Nat) (s : State) : (dropTerminal k s).link = s.link := by
  unfold dropTerminal
  repeat' first | with_reducible rfl | simp only [link_mk, link_setChain, link_reownTerminal] | split

theorem link_putSection (x : Nat) (c : SectionCfg) (s : State) : (putSection x c s).link = s.link := by
  unfold putSection
  repeat' first | with_reducible rfl | simp only [link_mk, link_refreshSection] | split

theorem link_dropSection (x : Nat) (s : State) : (dropSection x s).link = s.link := by
  unfold dropSection
  repeat' first | with_reducible rfl | simp only [link_mk, link_setOccupied] | split

theorem link_putPoint (p : Nat) (c : PointCfg) (fresh : Bool) (s : State) : (putPoint p c fresh s).link = s.link := by
  unfold putPoint
  repeat' first | with_reducible rfl | simp only [link_mk, link_hand] | split

theorem link_putTrain (n : Nat) (c : TrainCfg) (s : State) : (putTrain n c s).link = s.link := by
  unfold putTrain
  repeat' first | with_reducible rfl | simp only [link_mk, link_hand] | split

theorem link_unhome (s : State) : (unhome s).link = s.link := by
  unfold unhome
  repeat' first | with_reducible rfl | simp only [link_mk, link_report, link_hand, link_setTurn] | split

theorem link_putBridge (c : BridgeCfg) (s : State) : (putBridge c s).link = s.link := by
  unfold putBridge
  repeat' first | with_reducible rfl | simp only [link_mk, link_setTurn, link_unhome] | split

theorem link_dropBridge (s : State) : (dropBridge s).link = s.link := by
  unfold dropBridge
  repeat' first | with_reducible rfl | simp only [link_mk, link_setTurn, link_unhome] | split

theorem link_putRoad (k : Nat) (c : RoadCfg) (s : State) : (putRoad k c s).link = s.link := by
  unfold putRoad
  repeat' first | with_reducible rfl | simp only [link_mk, link_setTurn, link_judgeFacings] | split

theorem link_dropRoad (k : Nat) (s : State) : (dropRoad k s).link = s.link := by
  unfold dropRoad
  repeat' first | with_reducible rfl | simp only [link_mk, link_setTurn, link_judgeFacings] | split

theorem link_putRoute (r : Nat) (c : RouteCfg) (s : State) : (putRoute r c s).link = s.link := by
  unfold putRoute
  repeat' first | with_reducible rfl | simp only [link_mk] | split

theorem link_putSignal (g : Nat) (c : SignalCfg) (s : State) : (putSignal g c s).link = s.link := by
  unfold putSignal
  repeat' first | with_reducible rfl | simp only [link_mk] | split

theorem link_putShow (n : Nat) (c : ShowCfg) (s : State) : (putShow n c s).link = s.link := by
  unfold putShow
  repeat' first | with_reducible rfl | simp only [link_mk, link_judgeAvailable] | split

theorem link_dropShow (n : Nat) (s : State) : (dropShow n s).link = s.link := by
  unfold dropShow
  repeat' first | with_reducible rfl | simp only [link_mk] | split

theorem link_putModule (m : Nat) (t : ModuleType) (s : State) : (putModule m t s).link = s.link := by
  unfold putModule
  repeat' first | with_reducible rfl | simp only [link_mk, link_setChain, link_chainReset] | split

theorem link_dropModule (m : Nat) (s : State) : (dropModule m s).link = s.link := by
  unfold dropModule
  repeat' first | with_reducible rfl | simp only [link_mk, link_setChain, link_chainReset] | split

theorem link_fieldRefusal (e : Code × Text) (s : State) : (fieldRefusal e s).1.link = s.link := by
  unfold fieldRefusal
  repeat' first | with_reducible rfl | simp only [link_mk] | split

theorem link_applyFields {α : Type} (fields : Except (Code × Text) (α → α)) (old : α) (put : α → State → State)
    (h : ∀ a s, (put a s).link = s.link) (s : State) : (applyFields fields old put s).1.link = s.link := by
  unfold applyFields; repeat' first | with_reducible rfl | simp only [link_fieldRefusal, h] | split

theorem link_defineRecord (t : Target) (fields : List (Text × Text)) (s : State) :
    (defineRecord t fields s).1.link = s.link := by
  unfold defineRecord
  repeat' first
    | with_reducible rfl
    | simp only [link_mk, link_putTerminal, link_putSection, link_putPoint, link_putTrain, link_putBridge,
      link_putRoad, link_putRoute, link_putSignal, link_putShow, link_putModule]
    | with_reducible refine (link_arrivalReply _ (fun s => ?_) _).trans ?_
    | with_reducible refine (link_applyFields _ _ _ (fun a s => ?_) _).trans ?_
    | split

theorem link_deleteRecord (t : Target) (s : State) : (deleteRecord t s).link = s.link := by
  unfold deleteRecord
  repeat' first
    | with_reducible rfl
    | simp only [link_mk, link_hand, link_dropTerminal, link_dropSection, link_dropBridge, link_dropRoad,
      link_dropShow, link_dropModule]
    | with_reducible refine (link_arrival _ (fun s => ?_) _).trans ?_
    | split

theorem link_cmdDefine (kind : Text) (r : RecordRef) (fields : List (Text × Text)) (s : State) :
    (cmdDefine kind r fields s).1.link = s.link := by
  unfold cmdDefine
  repeat' first | with_reducible rfl | simp only [link_mk, link_defineRecord] | split

theorem link_cmdDefDelete (kind : Text) (r : RecordRef) (s : State) : (cmdDefDelete kind r s).1.link = s.link := by
  unfold cmdDefDelete
  repeat' first | with_reducible rfl | simp only [link_mk, link_deleteRecord] | split

theorem link_setSupply (s : State) (f : PointUnit → PointUnit) : (State.setSupply s f).link = s.link := by
  unfold State.setSupply
  repeat' first | with_reducible rfl | simp only [link_mk] | split

theorem link_setCaps (s : State) (f : Interlocking → Interlocking) : (State.setCaps s f).link = s.link := by
  unfold State.setCaps
  repeat' first | with_reducible rfl | simp only [link_mk] | split

theorem link_setupKey {key v : Text} {f : State → State} (h : setupKey key v = .ok f) (s : State) :
    (f s).link = s.link := by
  have w : ∀ {β : Type} (v : Except Code β) (set : β → State → State), (∀ b s, (set b s).link = s.link) →
      writeField v set = .ok f → (f s).link = s.link := by
    intro β v set hset he
    unfold writeField at he
    split at he
    · cases he; exact hset _ _
    · cases he
  have c : ∀ {b : Bool} {x y : FieldChange State}, (x = .ok f → (f s).link = s.link) →
      (y = .ok f → (f s).link = s.link) → (if b then x else y) = .ok f → (f s).link = s.link := by
    intro b x y hx hy h; cases b
    · exact hy h
    · exact hx h
  revert h; unfold setupKey
  iterate 10 refine c (w _ _ fun _ _ => rfl) ?_
  intro h; cases h

theorem link_readSetup {pairs : List (Text × Text)} {f : State → State}
    (h : readFields setupKey pairs = .ok f) (s : State) : (f s).link = s.link := by
  induction pairs generalizing f s with
  | nil => cases h; rfl
  | cons p rest ih =>
    unfold readFields at h
    split at h
    · cases h
    · split at h
      · cases h
      · cases h; rw [ih ‹_›, link_setupKey ‹_›]

theorem link_cmdSetup (pairs : List (Text × Text)) (s : State) : (cmdSetup pairs s).1.link = s.link := by
  unfold cmdSetup; repeat' first | with_reducible rfl | exact link_readSetup ‹_› s | split

theorem link_cmdTell (ws : List TellWord) (s : State) : (cmdTell ws s).1.link = s.link := by
  unfold cmdTell
  split
  · rfl
  · cases tellClasses ws s.hl.classes <;> rfl

theorem link_cmdAux (a v : Nat) (s : State) : (cmdAux a v s).1.link = s.link := by
  unfold cmdAux; split <;> rfl

theorem link_cmdBaud (n : Nat) (s : State) : (cmdBaud n s).1.link = s.link := by
  unfold cmdBaud
  repeat' first | with_reducible rfl | simp only [link_mk] | split


end Sys2Proof.Machine
end

