-- ==== Sys2Proof/Laws/Tables.lean ====
section
/-! SUPPORT. Every operation but a definition, a start-up and a SAVE leaves the same records DEFINED, and the
store as it is: one lemma for each operation, cited by the next. -/

namespace Sys2Proof.Machine

open Sys2Proof

set_option linter.unusedSimpArgs false

/-- A change of nothing that the view holds. -/
theorem tables_mk (p : Bool) (q : List Instr) (n : Nat) (a : List Notice) (fr : Nat) (m : Mode) (dg : Drive)
    (hl : HostLink) (s : State) :
    (State.mk p q n a fr m s.sections s.fc s.pu s.ix s.tt dg s.tu s.vu s.ss hl).tables = s.tables := rfl

theorem tables_sections (p : Bool) (q : List Instr) (n : Nat) (a : List Notice) (fr : Nat) (m : Mode) (dg : Drive)
    (hl : HostLink) (s : State) (x : Table SectionRec) (h : Table.keys x = Table.keys s.sections) :
    (State.mk p q n a fr m x s.fc s.pu s.ix s.tt dg s.tu s.vu s.ss hl).tables = s.tables := by
  simp only [State.tables, h]

theorem tables_pu (p : Bool) (q : List Instr) (n : Nat) (a : List Notice) (fr : Nat) (m : Mode) (dg : Drive)
    (hl : HostLink) (s : State) (x : PointUnit) (h : Table.keys x.points = Table.keys s.pu.points) :
    (State.mk p q n a fr m s.sections s.fc x s.ix s.tt dg s.tu s.vu s.ss hl).tables = s.tables := by
  simp only [State.tables, h]

theorem tables_ix (p : Bool) (q : List Instr) (n : Nat) (a : List Notice) (fr : Nat) (m : Mode) (dg : Drive)
    (hl : HostLink) (s : State) (x : Interlocking) (h : Table.keys x.routes = Table.keys s.ix.routes)
    (h' : Table.keys x.signals = Table.keys s.ix.signals) :
    (State.mk p q n a fr m s.sections s.fc s.pu x s.tt dg s.tu s.vu s.ss hl).tables = s.tables := by
  simp only [State.tables, h, h']

theorem tables_tt (p : Bool) (q : List Instr) (n : Nat) (a : List Notice) (fr : Nat) (m : Mode) (dg : Drive)
    (hl : HostLink) (s : State) (x : Tracker) (h : Table.keys x.trains = Table.keys s.tt.trains) :
    (State.mk p q n a fr m s.sections s.fc s.pu s.ix x dg s.tu s.vu s.ss hl).tables = s.tables := by
  simp only [State.tables, h]

theorem tables_tu (p : Bool) (q : List Instr) (n : Nat) (a : List Notice) (fr : Nat) (m : Mode) (dg : Drive)
    (hl : HostLink) (s : State) (x : Turntable) (h : Table.keys x.roads = Table.keys s.tu.roads) :
    (State.mk p q n a fr m s.sections s.fc s.pu s.ix s.tt dg x s.vu s.ss hl).tables = s.tables := by
  simp only [State.tables, h]

theorem tables_vu (p : Bool) (q : List Instr) (n : Nat) (a : List Notice) (fr : Nat) (m : Mode) (dg : Drive)
    (hl : HostLink) (s : State) (x : Visitor) (h : Table.keys x.shows = Table.keys s.vu.shows) :
    (State.mk p q n a fr m s.sections s.fc s.pu s.ix s.tt dg s.tu x s.ss hl).tables = s.tables := by
  simp only [State.tables, h]

theorem tables_ss (p : Bool) (q : List Instr) (n : Nat) (a : List Notice) (fr : Nat) (m : Mode) (dg : Drive)
    (hl : HostLink) (s : State) (x : StopStore) (h : x.bank0 = s.ss.bank0) (h' : x.bank1 = s.ss.bank1)
    (h'' : x.save = s.ss.save) :
    (State.mk p q n a fr m s.sections s.fc s.pu s.ix s.tt dg s.tu s.vu x hl).tables = s.tables := by
  simp only [State.tables, h, h', h'']

theorem tables_fc (p : Bool) (q : List Instr) (n : Nat) (a : List Notice) (fr : Nat) (m : Mode) (dg : Drive)
    (hl : HostLink) (s : State) (x : Chain) (h : Table.keys x.modules = Table.keys s.fc.modules)
    (h' : Table.keys x.terminals = Table.keys s.fc.terminals) (h'' : Table.wf x.live = Table.wf s.fc.live) :
    (State.mk p q n a fr m s.sections x s.pu s.ix s.tt dg s.tu s.vu s.ss hl).tables = s.tables := by
  simp only [State.tables, h, h', h'']

theorem tables_foldState {α : Type} (f : α → State → State) (h : ∀ a s, (f a s).tables = s.tables) (l : List α)
    (s : State) : (foldState f l s).tables = s.tables := by
  induction l generalizing s with
  | nil => rfl
  | cons a rest ih => rw [foldState, ih, h]

theorem tables_reach (s : State) (t : Nat) : (State.reach s t).tables = s.tables := by
  unfold State.reach
  repeat' first
    | with_reducible rfl
    | simp only [tables_mk, tables_sections, tables_pu, tables_ix, tables_tt, tables_tu, tables_vu, tables_ss,
      tables_fc, Table.keys_update, Table.keys_mapVals, Table.wf_mapVals, Table.wf_put_iff]
    | split

theorem tables_expire (s : State) (t : Timer) : (State.expire s t).tables = s.tables := by
  unfold State.expire
  repeat' first
    | with_reducible rfl
    | simp only [tables_mk, tables_sections, tables_pu, tables_ix, tables_tt, tables_tu, tables_vu, tables_ss,
      tables_fc, tables_reach, Table.keys_update, Table.keys_mapVals, Table.wf_mapVals, Table.wf_put_iff]
    | split

theorem tables_report (s : State) (r : Report) : (s.report r).tables = s.tables := rfl

theorem tables_hand (s : State) (n : Notice) : (State.hand s n).tables = s.tables := by
  unfold State.hand
  repeat' first
    | with_reducible rfl
    | simp only [tables_mk, tables_sections, tables_pu, tables_ix, tables_tt, tables_tu, tables_vu, tables_ss,
      tables_fc, Table.keys_update, Table.keys_mapVals, Table.wf_mapVals, Table.wf_put_iff]
    | split

theorem tables_handAll (s : State) (ns : List Notice) : (State.handAll s ns).tables = s.tables := by
  unfold State.handAll
  repeat' first
    | with_reducible rfl
    | simp only [tables_mk, tables_sections, tables_pu, tables_ix, tables_tt, tables_tu, tables_vu, tables_ss,
      tables_fc, Table.keys_update, Table.keys_mapVals, Table.wf_mapVals, Table.wf_put_iff]
    | split

theorem tables_askReexamine (s : State) : (State.askReexamine s).tables = s.tables := by
  unfold State.askReexamine
  repeat' first
    | with_reducible rfl
    | simp only [tables_mk, tables_sections, tables_pu, tables_ix, tables_tt, tables_tu, tables_vu, tables_ss,
      tables_fc, tables_hand, Table.keys_update, Table.keys_mapVals, Table.wf_mapVals, Table.wf_put_iff]
    | split

theorem tables_setSection (s : State) (x : Nat) (f : SectionRec → SectionRec) :
    (State.setSection s x f).tables = s.tables := by
  unfold State.setSection
  repeat' first
    | with_reducible rfl
    | simp only [tables_mk, tables_sections, tables_pu, tables_ix, tables_tt, tables_tu, tables_vu, tables_ss,
      tables_fc, Table.keys_update, Table.keys_mapVals, Table.wf_mapVals, Table.wf_put_iff]
    | split

theorem tables_setPoint (s : State) (p : Nat) (f : PointRec → PointRec) :
    (State.setPoint s p f).tables = s.tables := by
  unfold State.setPoint
  repeat' first
    | with_reducible rfl
    | simp only [tables_mk, tables_sections, tables_pu, tables_ix, tables_tt, tables_tu, tables_vu, tables_ss,
      tables_fc, Table.keys_update, Table.keys_mapVals, Table.wf_mapVals, Table.wf_put_iff]
    | split

theorem tables_setRoute (s : State) (r : Nat) (f : RouteRec → RouteRec) :
    (State.setRoute s r f).tables = s.tables := by
  unfold State.setRoute
  repeat' first
    | with_reducible rfl
    | simp only [tables_mk, tables_sections, tables_pu, tables_ix, tables_tt, tables_tu, tables_vu, tables_ss,
      tables_fc, Table.keys_update, Table.keys_mapVals, Table.wf_mapVals, Table.wf_put_iff]
    | split

theorem tables_setTrain (s : State) (n : Nat) (f : TrainRec → TrainRec) :
    (State.setTrain s n f).tables = s.tables := by
  unfold State.setTrain
  repeat' first
    | with_reducible rfl
    | simp only [tables_mk, tables_sections, tables_pu, tables_ix, tables_tt, tables_tu, tables_vu, tables_ss,
      tables_fc, Table.keys_update, Table.keys_mapVals, Table.wf_mapVals, Table.wf_put_iff]
    | split

theorem tables_setShow (s : State) (n : Nat) (f : ShowRec → ShowRec) : (State.setShow s n f).tables = s.tables := by
  unfold State.setShow
  repeat' first
    | with_reducible rfl
    | simp only [tables_mk, tables_sections, tables_pu, tables_ix, tables_tt, tables_tu, tables_vu, tables_ss,
      tables_fc, Table.keys_update, Table.keys_mapVals, Table.wf_mapVals, Table.wf_put_iff]
    | split

theorem tables_setTurn (s : State) (f : Turntable → Turntable) (h : Table.keys (f s.tu).roads = Table.keys s.tu.roads) :
    (s.setTurn f).tables = s.tables := tables_tu _ _ _ _ _ _ _ _ s _ h

theorem tables_setOccupied (x : Nat) (v : Bool) (s : State) : (setOccupied x v s).tables = s.tables := by
  unfold setOccupied
  repeat' first
    | with_reducible rfl
    | simp only [tables_mk, tables_sections, tables_pu, tables_ix, tables_tt, tables_tu, tables_vu, tables_ss,
      tables_fc, tables_report, tables_hand, tables_setSection, Table.keys_update, Table.keys_mapVals,
      Table.wf_mapVals, Table.wf_put_iff]
    | split

theorem tables_refreshSection (x : Nat) (s : State) : (refreshSection x s).tables = s.tables := by
  unfold refreshSection
  repeat' first
    | with_reducible rfl
    | simp only [tables_mk, tables_sections, tables_pu, tables_ix, tables_tt, tables_tu, tables_vu, tables_ss,
      tables_fc, tables_setOccupied, Table.keys_update, Table.keys_mapVals, Table.wf_mapVals, Table.wf_put_iff]
    | split

theorem tables_changePoint (p : Nat) (f : PointRec → PointRec) (rep : Report) (e : PointEvent) (s : State) :
    (changePoint p f rep e s).tables = s.tables := by
  unfold changePoint
  repeat' first
    | with_reducible rfl
    | simp only [tables_mk, tables_sections, tables_pu, tables_ix, tables_tt, tables_tu, tables_vu, tables_ss,
      tables_fc, tables_report, tables_hand, tables_setPoint, Table.keys_update, Table.keys_mapVals,
      Table.wf_mapVals, Table.wf_put_iff]
    | split

theorem tables_dropPoint (p : Nat) (cause : DropCause) (s : State) : (dropPoint p cause s).tables = s.tables := by
  unfold dropPoint
  repeat' first
    | with_reducible rfl
    | simp only [tables_mk, tables_sections, tables_pu, tables_ix, tables_tt, tables_tu, tables_vu, tables_ss,
      tables_fc, tables_changePoint, Table.keys_update, Table.keys_mapVals, Table.wf_mapVals, Table.wf_put_iff]
    | split

theorem tables_unqueue (s : State) (p : Nat) : (State.unqueue s p).tables = s.tables := by
  unfold State.unqueue
  repeat' first
    | with_reducible rfl
    | simp only [tables_mk, tables_sections, tables_pu, tables_ix, tables_tt, tables_tu, tables_vu, tables_ss,
      tables_fc, Table.keys_update, Table.keys_mapVals, Table.wf_mapVals, Table.wf_put_iff]
    | split

theorem tables_startPulse (p : Nat) (pos : PointPos) (s : State) : (startPulse p pos s).tables = s.tables := by
  unfold startPulse
  repeat' first
    | with_reducible rfl
    | simp only [tables_mk, tables_sections, tables_pu, tables_ix, tables_tt, tables_tu, tables_vu, tables_ss,
      tables_fc, tables_setPoint, Table.keys_update, Table.keys_mapVals, Table.wf_mapVals, Table.wf_put_iff]
    | split

theorem tables_pulseFrom (k : Nat) (s : State) : (pulseFrom k s).tables = s.tables := by
  induction k generalizing s with
  | zero => rfl
  | succ k ih =>
    unfold pulseFrom
    repeat' first | with_reducible rfl | simp only [tables_mk, tables_pu, tables_ix, tables_startPulse, tables_dropPoint, tables_askReexamine, ih] | split

theorem tables_considerPulse (s : State) : (considerPulse s).tables = s.tables := by
  unfold considerPulse
  repeat' first
    | with_reducible rfl
    | simp only [tables_mk, tables_sections, tables_pu, tables_ix, tables_tt, tables_tu, tables_vu, tables_ss,
      tables_fc, tables_pulseFrom, Table.keys_update, Table.keys_mapVals, Table.wf_mapVals, Table.wf_put_iff]
    | split

theorem tables_completeThrow (p : Nat) (pos : PointPos) (s : State) : (completeThrow p pos s).tables = s.tables := by
  unfold completeThrow
  repeat' first
    | with_reducible rfl
    | simp only [tables_mk, tables_sections, tables_pu, tables_ix, tables_tt, tables_tu, tables_vu, tables_ss,
      tables_fc, tables_askReexamine, tables_changePoint, Table.keys_update, Table.keys_mapVals, Table.wf_mapVals,
      Table.wf_put_iff]
    | split

theorem tables_endPulse (s : State) : (endPulse s).tables = s.tables := by
  unfold endPulse
  repeat' first
    | with_reducible rfl
    | simp only [tables_mk, tables_sections, tables_pu, tables_ix, tables_tt, tables_tu, tables_vu, tables_ss,
      tables_fc, tables_setPoint, tables_completeThrow, Table.keys_update, Table.keys_mapVals, Table.wf_mapVals,
      Table.wf_put_iff]
    | split

theorem tables_cutPulse (s : State) : (cutPulse s).tables = s.tables := by
  unfold cutPulse
  repeat' first
    | with_reducible rfl
    | simp only [tables_mk, tables_sections, tables_pu, tables_ix, tables_tt, tables_tu, tables_vu, tables_ss,
      tables_fc, Table.keys_update, Table.keys_mapVals, Table.wf_mapVals, Table.wf_put_iff]
    | split

theorem tables_pointsUpdate (n : Nat) (s : State) : (pointsUpdate n s).tables = s.tables := by
  unfold pointsUpdate
  repeat' first
    | with_reducible rfl
    | simp only [tables_mk, tables_sections, tables_pu, tables_ix, tables_tt, tables_tu, tables_vu, tables_ss,
      tables_fc, tables_endPulse, tables_cutPulse, Table.keys_update, Table.keys_mapVals, Table.wf_mapVals,
      Table.wf_put_iff]
    | split

theorem tables_judgeAtRest (p : Nat) (r : PointRec) (s : State) : (judgeAtRest p r s).tables = s.tables := by
  unfold judgeAtRest
  repeat' first
    | with_reducible rfl
    | simp only [tables_mk, tables_sections, tables_pu, tables_ix, tables_tt, tables_tu, tables_vu, tables_ss,
      tables_fc, tables_changePoint, Table.keys_update, Table.keys_mapVals, Table.wf_mapVals, Table.wf_put_iff]
    | split

theorem tables_refreshPoint (p : Nat) (s : State) : (refreshPoint p s).tables = s.tables := by
  unfold refreshPoint
  repeat' first
    | with_reducible rfl
    | simp only [tables_mk, tables_sections, tables_pu, tables_ix, tables_tt, tables_tu, tables_vu, tables_ss,
      tables_fc, tables_setPoint, tables_completeThrow, tables_judgeAtRest, Table.keys_update, Table.keys_mapVals,
      Table.wf_mapVals, Table.wf_put_iff]
    | split

theorem tables_detectionTimeout (p : Nat) (s : State) : (detectionTimeout p s).tables = s.tables := by
  unfold detectionTimeout
  repeat' first
    | with_reducible rfl
    | simp only [tables_mk, tables_sections, tables_pu, tables_ix, tables_tt, tables_tu, tables_vu, tables_ss,
      tables_fc, tables_expire, tables_changePoint, Table.keys_update, Table.keys_mapVals, Table.wf_mapVals,
      Table.wf_put_iff]
    | split

theorem tables_commandPoint (p : Nat) (pos : PointPos) (ph : Phase) (s : State) :
    (commandPoint p pos ph s).tables = s.tables := by
  unfold commandPoint
  repeat' first
    | with_reducible rfl
    | simp only [tables_mk, tables_sections, tables_pu, tables_ix, tables_tt, tables_tu, tables_vu, tables_ss,
      tables_fc, tables_setPoint, tables_changePoint, Table.keys_update, Table.keys_mapVals, Table.wf_mapVals,
      Table.wf_put_iff]
    | split

theorem tables_joinQueue (p : Nat) (pos : PointPos) (ph : Phase) (s : State) :
    (joinQueue p pos ph s).tables = s.tables := by
  unfold joinQueue
  repeat' first
    | with_reducible rfl
    | simp only [tables_mk, tables_sections, tables_pu, tables_ix, tables_tt, tables_tu, tables_vu, tables_ss,
      tables_fc, tables_considerPulse, tables_commandPoint, Table.keys_update, Table.keys_mapVals, Table.wf_mapVals,
      Table.wf_put_iff]
    | split

theorem tables_replaceEntry (p : Nat) (pos : PointPos) (ph : Phase) (s : State) :
    (replaceEntry p pos ph s).tables = s.tables := by
  unfold replaceEntry
  repeat' first
    | with_reducible rfl
    | simp only [tables_mk, tables_sections, tables_pu, tables_ix, tables_tt, tables_tu, tables_vu, tables_ss,
      tables_fc, tables_commandPoint, Table.keys_update, Table.keys_mapVals, Table.wf_mapVals, Table.wf_put_iff]
    | split

theorem tables_throwPoint (p : Nat) (pos : PointPos) (s : State) : (throwPoint p pos s).tables = s.tables := by
  unfold throwPoint
  repeat' first
    | with_reducible rfl
    | simp only [tables_mk, tables_sections, tables_pu, tables_ix, tables_tt, tables_tu, tables_vu, tables_ss,
      tables_fc, tables_joinQueue, tables_replaceEntry, Table.keys_update, Table.keys_mapVals, Table.wf_mapVals,
      Table.wf_put_iff]
    | split

theorem tables_withdrawThrow (p : Nat) (s : State) : (withdrawThrow p s).tables = s.tables := by
  unfold withdrawThrow
  repeat' first
    | with_reducible rfl
    | simp only [tables_mk, tables_sections, tables_pu, tables_ix, tables_tt, tables_tu, tables_vu, tables_ss,
      tables_fc, tables_askReexamine, tables_dropPoint, tables_unqueue, Table.keys_update, Table.keys_mapVals,
      Table.wf_mapVals, Table.wf_put_iff]
    | split

theorem tables_pointsStop (s : State) : (pointsStop s).tables = s.tables := by
  unfold pointsStop
  repeat' first
    | with_reducible rfl
    | simp only [tables_mk, tables_sections, tables_pu, tables_ix, tables_tt, tables_tu, tables_vu, tables_ss,
      tables_fc, tables_askReexamine, tables_dropPoint, tables_unqueue, tables_cutPulse, Table.keys_update,
      Table.keys_mapVals, Table.wf_mapVals, Table.wf_put_iff]
    | with_reducible refine (tables_foldState _ (fun a s => ?_) _ _).trans ?_
    | split

theorem tables_rechargeExpiry (s : State) : (rechargeExpiry s).tables = s.tables := by
  unfold rechargeExpiry
  repeat' first
    | with_reducible rfl
    | simp only [tables_mk, tables_sections, tables_pu, tables_ix, tables_tt, tables_tu, tables_vu, tables_ss,
      tables_fc, tables_reach, tables_considerPulse, Table.keys_update, Table.keys_mapVals, Table.wf_mapVals,
      Table.wf_put_iff]
    | split

theorem tables_coilsCleared (s : State) : (coilsCleared s).tables = s.tables := by
  unfold coilsCleared
  repeat' first
    | with_reducible rfl
    | simp only [tables_mk, tables_sections, tables_pu, tables_ix, tables_tt, tables_tu, tables_vu, tables_ss,
      tables_fc, tables_endPulse, Table.keys_update, Table.keys_mapVals, Table.wf_mapVals, Table.wf_put_iff]
    | split

theorem tables_clearFlag (p : Nat) (s : State) : (clearFlag p s).tables = s.tables := by
  unfold clearFlag
  repeat' first
    | with_reducible rfl
    | simp only [tables_mk, tables_sections, tables_pu, tables_ix, tables_tt, tables_tu, tables_vu, tables_ss,
      tables_fc, tables_askReexamine, tables_setPoint, Table.keys_update, Table.keys_mapVals, Table.wf_mapVals,
      Table.wf_put_iff]
    | split

theorem tables_cmdPoint (p : Nat) (pos : PointPos) (s : State) : (cmdPoint p pos s).1.tables = s.tables := by
  unfold cmdPoint
  repeat' first
    | with_reducible rfl
    | simp only [tables_mk, tables_sections, tables_pu, tables_ix, tables_tt, tables_tu, tables_vu, tables_ss,
      tables_fc, tables_throwPoint, tables_clearFlag, Table.keys_update, Table.keys_mapVals, Table.wf_mapVals,
      Table.wf_put_iff]
    | split

theorem tables_refreshSignals (s : State) : (refreshSignals s).tables = s.tables :=
  tables_ix _ _ _ _ _ _ _ _ s _ rfl (Table.keys_map _ _ fun _ => rfl)

theorem tables_handAspects (before l : List (Nat × Aspect)) (s : State) : (handAspects before l s).tables = s.tables := by
  induction l generalizing s with
  | nil => rfl
  | cons e rest ih =>
    obtain ⟨g, a⟩ := e
    unfold handAspects
    repeat' first | with_reducible rfl | simp only [tables_mk, tables_pu, tables_ix, tables_report, ih] | split

theorem tables_settleSignals (before : List (Nat × Aspect)) (s : State) :
    (settleSignals before s).tables = s.tables := by
  unfold settleSignals
  repeat' first
    | with_reducible rfl
    | simp only [tables_mk, tables_sections, tables_pu, tables_ix, tables_tt, tables_tu, tables_vu, tables_ss,
      tables_fc, tables_refreshSignals, tables_handAspects, Table.keys_update, Table.keys_mapVals, Table.wf_mapVals,
      Table.wf_put_iff]
    | split

theorem tables_carry (n : Nat) (s : State) : (carry n s).tables = s.tables := by
  unfold carry
  repeat' first
    | with_reducible rfl
    | simp only [tables_mk, tables_sections, tables_pu, tables_ix, tables_tt, tables_tu, tables_vu, tables_ss,
      tables_fc, tables_hand, tables_setTrain, tables_setTurn, Table.keys_update, Table.keys_mapVals,
      Table.wf_mapVals, Table.wf_put_iff]
    | split

theorem tables_takeCarried (s : State) : (takeCarried s).tables = s.tables := by
  unfold takeCarried
  repeat' first
    | with_reducible rfl
    | simp only [tables_mk, tables_sections, tables_pu, tables_ix, tables_tt, tables_tu, tables_vu, tables_ss,
      tables_fc, tables_carry, Table.keys_update, Table.keys_mapVals, Table.wf_mapVals, Table.wf_put_iff]
    | split

theorem tables_releaseCarried (s : State) : (releaseCarried s).tables = s.tables := by
  unfold releaseCarried
  repeat' first
    | with_reducible rfl
    | simp only [tables_mk, tables_sections, tables_pu, tables_ix, tables_tt, tables_tu, tables_vu, tables_ss,
      tables_fc, tables_hand, tables_setTrain, tables_setTurn, Table.keys_update, Table.keys_mapVals,
      Table.wf_mapVals, Table.wf_put_iff]
    | split

theorem tables_carryPlaced (n x : Nat) (s : State) : (carryPlaced n x s).tables = s.tables := by
  unfold carryPlaced
  repeat' first
    | with_reducible rfl
    | simp only [tables_mk, tables_sections, tables_pu, tables_ix, tables_tt, tables_tu, tables_vu, tables_ss,
      tables_fc, tables_carry, Table.keys_update, Table.keys_mapVals, Table.wf_mapVals, Table.wf_put_iff]
    | split

theorem tables_dropCarried (n : Nat) (s : State) : (dropCarried n s).tables = s.tables := by
  unfold dropCarried
  repeat' first
    | with_reducible rfl
    | simp only [tables_mk, tables_sections, tables_pu, tables_ix, tables_tt, tables_tu, tables_vu, tables_ss,
      tables_fc, tables_releaseCarried, Table.keys_update, Table.keys_mapVals, Table.wf_mapVals, Table.wf_put_iff]
    | split

theorem tables_endStepping (s : State) : (endStepping s).tables = s.tables := by
  unfold endStepping
  repeat' first
    | with_reducible rfl
    | simp only [tables_mk, tables_sections, tables_pu, tables_ix, tables_tt, tables_tu, tables_vu, tables_ss,
      tables_fc, Table.keys_update, Table.keys_mapVals, Table.wf_mapVals, Table.wf_put_iff]
    | split

theorem tables_tellOrigin (m : Move) (out : MoveOutcome) (s : State) : (tellOrigin m out s).tables = s.tables := by
  unfold tellOrigin
  repeat' first
    | with_reducible rfl
    | simp only [tables_mk, tables_sections, tables_pu, tables_ix, tables_tt, tables_tu, tables_vu, tables_ss,
      tables_fc, tables_hand, tables_setRoute, Table.keys_update, Table.keys_mapVals, Table.wf_mapVals,
      Table.wf_put_iff]
    | split

theorem tables_restAt (pos : Nat) (s : State) : (restAt pos s).tables = s.tables := by
  unfold restAt
  repeat' first
    | with_reducible rfl
    | simp only [tables_mk, tables_sections, tables_pu, tables_ix, tables_tt, tables_tu, tables_vu, tables_ss,
      tables_fc, tables_report, tables_hand, tables_setTurn, tables_releaseCarried, tables_endStepping,
      tables_tellOrigin, Table.keys_update, Table.keys_mapVals, Table.wf_mapVals, Table.wf_put_iff]
    | split

theorem tables_losePosition (st : BridgeState) (rep : Report) (s : State) :
    (losePosition st rep s).tables = s.tables := by
  unfold losePosition
  repeat' first
    | with_reducible rfl
    | simp only [tables_mk, tables_sections, tables_pu, tables_ix, tables_tt, tables_tu, tables_vu, tables_ss,
      tables_fc, tables_report, tables_hand, tables_setTurn, tables_releaseCarried, tables_endStepping,
      tables_tellOrigin, Table.keys_update, Table.keys_mapVals, Table.wf_mapVals, Table.wf_put_iff]
    | split

theorem tables_judgeFacings (s : State) : (judgeFacings s).tables = s.tables := by
  unfold judgeFacings
  repeat' first
    | with_reducible rfl
    | simp only [tables_mk, tables_sections, tables_pu, tables_ix, tables_tt, tables_tu, tables_vu, tables_ss,
      tables_fc, tables_report, tables_hand, tables_setTurn, Table.keys_update, Table.keys_mapVals,
      Table.wf_mapVals, Table.wf_put_iff]
    | split

theorem tables_beginMove (k : Nat) (e : BridgeEnd) (dir : Option MoveDir) (origin : Origin) (s : State) :
    (beginMove k e dir origin s).1.tables = s.tables := by
  unfold beginMove; repeat' first | with_reducible rfl | simp only [tables_setTurn, tables_report, tables_hand, tables_takeCarried] | split

theorem tables_requestMove {k : Nat} {e : BridgeEnd} {dir : Option MoveDir} {origin : Origin} {s s1 : State}
    {w : Option MoveDir} (h : requestMove k e dir origin s = .ok (s1, w)) : s1.tables = s.tables := by
  unfold requestMove at h
  split at h
  · cases h
  · rw [← tables_beginMove k e dir origin s, Except.ok.inj h]

theorem tables_beginHoming (b : BridgeCfg) (s : State) : (beginHoming b s).tables = s.tables := by
  unfold beginHoming
  repeat' first
    | with_reducible rfl
    | simp only [tables_mk, tables_sections, tables_pu, tables_ix, tables_tt, tables_tu, tables_vu, tables_ss,
      tables_fc, tables_report, tables_hand, tables_setTurn, tables_takeCarried, Table.keys_update,
      Table.keys_mapVals, Table.wf_mapVals, Table.wf_put_iff]
    | split

theorem tables_bridgeStep (s : State) : (bridgeStep s).tables = s.tables := by
  unfold bridgeStep
  repeat' first
    | with_reducible rfl
    | simp only [tables_mk, tables_sections, tables_pu, tables_ix, tables_tt, tables_tu, tables_vu, tables_ss,
      tables_fc, tables_expire, tables_setTurn, tables_restAt, tables_losePosition, Table.keys_update,
      Table.keys_mapVals, Table.wf_mapVals, Table.wf_put_iff]
    | split

theorem tables_setRate (r : Nat) (s : State) : (setRate r s).tables = s.tables := by
  unfold setRate
  repeat' first
    | with_reducible rfl
    | simp only [tables_mk, tables_sections, tables_pu, tables_ix, tables_tt, tables_tu, tables_vu, tables_ss,
      tables_fc, tables_setTurn, Table.keys_update, Table.keys_mapVals, Table.wf_mapVals, Table.wf_put_iff]
    | split

theorem tables_rateUpdate (s : State) : (rateUpdate s).tables = s.tables := by
  unfold rateUpdate
  repeat' first
    | with_reducible rfl
    | simp only [tables_mk, tables_sections, tables_pu, tables_ix, tables_tt, tables_tu, tables_vu, tables_ss,
      tables_fc, tables_expire, tables_setTurn, tables_restAt, tables_setRate, Table.keys_update,
      Table.keys_mapVals, Table.wf_mapVals, Table.wf_put_iff]
    | split

theorem tables_driftCheck (n : Nat) (m : Move) (pos : Nat) (s : State) :
    (driftCheck n m pos s).tables = s.tables := by
  unfold driftCheck
  repeat' first
    | with_reducible rfl
    | simp only [tables_mk, tables_sections, tables_pu, tables_ix, tables_tt, tables_tu, tables_vu, tables_ss,
      tables_fc, tables_report, tables_setTurn, tables_restAt, tables_losePosition, Table.keys_update,
      Table.keys_mapVals, Table.wf_mapVals, Table.wf_put_iff]
    | split

theorem tables_homeEdge (s : State) : (homeEdge s).tables = s.tables := by
  unfold homeEdge
  repeat' first
    | with_reducible rfl
    | simp only [tables_mk, tables_sections, tables_pu, tables_ix, tables_tt, tables_tu, tables_vu, tables_ss,
      tables_fc, tables_restAt, tables_driftCheck, Table.keys_update, Table.keys_mapVals, Table.wf_mapVals,
      Table.wf_put_iff]
    | split

theorem tables_turntableStop (s : State) : (turntableStop s).tables = s.tables := by
  unfold turntableStop
  repeat' first
    | with_reducible rfl
    | simp only [tables_mk, tables_sections, tables_pu, tables_ix, tables_tt, tables_tu, tables_vu, tables_ss,
      tables_fc, tables_restAt, tables_losePosition, Table.keys_update, Table.keys_mapVals, Table.wf_mapVals,
      Table.wf_put_iff]
    | split

theorem tables_cmdTurn (k : Nat) (e : Option BridgeEnd) (dir : Option MoveDir) (s : State) :
    (cmdTurn k e dir s).1.tables = s.tables := by
  unfold cmdTurn
  repeat' first | with_reducible rfl | exact tables_requestMove ‹_› | split

theorem tables_cmdTurnHome (s : State) : (cmdTurnHome s).1.tables = s.tables := by
  unfold cmdTurnHome
  repeat' first
    | with_reducible rfl
    | simp only [tables_mk, tables_sections, tables_pu, tables_ix, tables_tt, tables_tu, tables_vu, tables_ss,
      tables_fc, tables_beginHoming, Table.keys_update, Table.keys_mapVals, Table.wf_mapVals, Table.wf_put_iff]
    | split

theorem tables_cmdTurnStop (s : State) : (cmdTurnStop s).1.tables = s.tables := by
  unfold cmdTurnStop
  repeat' first
    | with_reducible rfl
    | simp only [tables_mk, tables_sections, tables_pu, tables_ix, tables_tt, tables_tu, tables_vu, tables_ss,
      tables_fc, tables_report, tables_hand, tables_setTurn, tables_losePosition, Table.keys_update,
      Table.keys_mapVals, Table.wf_mapVals, Table.wf_put_iff]
    | split

theorem tables_leavePoint (r p : Nat) (s : State) : (leavePoint r p s).tables = s.tables := by
  unfold leavePoint
  repeat' first
    | with_reducible rfl
    | simp only [tables_mk, tables_sections, tables_pu, tables_ix, tables_tt, tables_tu, tables_vu, tables_ss,
      tables_fc, tables_setPoint, Table.keys_update, Table.keys_mapVals, Table.wf_mapVals, Table.wf_put_iff]
    | split

theorem tables_leaveBridge (r : Nat) (s : State) : (leaveBridge r s).tables = s.tables := by
  unfold leaveBridge
  repeat' first
    | with_reducible rfl
    | simp only [tables_mk, tables_sections, tables_pu, tables_ix, tables_tt, tables_tu, tables_vu, tables_ss,
      tables_fc, tables_setTurn, Table.keys_update, Table.keys_mapVals, Table.wf_mapVals, Table.wf_put_iff]
    | split

theorem tables_releaseSection (r : Nat) (c : RouteCfg) (x : Nat) (s : State) :
    (releaseSection r c x s).tables = s.tables := by
  unfold releaseSection
  repeat' first
    | with_reducible rfl
    | simp only [tables_mk, tables_sections, tables_pu, tables_ix, tables_tt, tables_tu, tables_vu, tables_ss,
      tables_fc, tables_setSection, tables_leavePoint, tables_leaveBridge, Table.keys_update, Table.keys_mapVals,
      Table.wf_mapVals, Table.wf_put_iff]
    | split

theorem tables_leaveAll (r : Nat) (s : State) : (leaveAll r s).tables = s.tables := by
  unfold leaveAll
  repeat' first
    | with_reducible rfl
    | simp only [tables_mk, tables_sections, tables_pu, tables_ix, tables_tt, tables_tu, tables_vu, tables_ss,
      tables_fc, tables_leavePoint, tables_leaveBridge, Table.keys_update, Table.keys_mapVals, Table.wf_mapVals,
      Table.wf_put_iff]
    | with_reducible refine (tables_foldState _ (fun a s => ?_) _ _).trans ?_
    | split

theorem tables_changeRoute (r : Nat) (st : RouteState) (rep : Report) (f : RouteRec → RouteRec) (s : State) :
    (changeRoute r st rep f s).tables = s.tables := by
  unfold changeRoute
  repeat' first
    | with_reducible rfl
    | simp only [tables_mk, tables_sections, tables_pu, tables_ix, tables_tt, tables_tu, tables_vu, tables_ss,
      tables_fc, tables_report, tables_hand, tables_setRoute, Table.keys_update, Table.keys_mapVals,
      Table.wf_mapVals, Table.wf_put_iff]
    | split

theorem tables_setMark (n : Nat) (m : RequestMark) (s : State) : (setMark n m s).tables = s.tables := by
  unfold setMark
  repeat' first
    | with_reducible rfl
    | simp only [tables_mk, tables_sections, tables_pu, tables_ix, tables_tt, tables_tu, tables_vu, tables_ss,
      tables_fc, tables_setTrain, Table.keys_update, Table.keys_mapVals, Table.wf_mapVals, Table.wf_put_iff]
    | split

theorem tables_clearStarted (r : Nat) (s : State) : (clearStarted r s).tables = s.tables := by
  unfold clearStarted
  repeat' first
    | with_reducible rfl
    | simp only [tables_mk, tables_sections, tables_pu, tables_ix, tables_tt, tables_tu, tables_vu, tables_ss,
      tables_fc, tables_setMark, Table.keys_update, Table.keys_mapVals, Table.wf_mapVals, Table.wf_put_iff]
    | with_reducible refine (tables_foldState _ (fun a s => ?_) _ _).trans ?_
    | split

theorem tables_idleRoute (r : Nat) (s : State) : (idleRoute r s).tables = s.tables := by
  unfold idleRoute
  repeat' first
    | with_reducible rfl
    | simp only [tables_mk, tables_sections, tables_pu, tables_ix, tables_tt, tables_tu, tables_vu, tables_ss,
      tables_fc, tables_askReexamine, tables_changeRoute, tables_clearStarted, Table.keys_update,
      Table.keys_mapVals, Table.wf_mapVals, Table.wf_put_iff]
    | split

theorem tables_withdrawIfFree (p : Nat) (s : State) : (withdrawIfFree p s).tables = s.tables := by
  unfold withdrawIfFree
  repeat' first
    | with_reducible rfl
    | simp only [tables_mk, tables_sections, tables_pu, tables_ix, tables_tt, tables_tu, tables_vu, tables_ss,
      tables_fc, tables_withdrawThrow, Table.keys_update, Table.keys_mapVals, Table.wf_mapVals, Table.wf_put_iff]
    | split

theorem tables_fullRelease (r : Nat) (s : State) : (fullRelease r s).tables = s.tables := by
  unfold fullRelease
  repeat' first
    | with_reducible rfl
    | simp only [tables_mk, tables_sections, tables_pu, tables_ix, tables_tt, tables_tu, tables_vu, tables_ss,
      tables_fc, tables_setSection, tables_setRoute, tables_leaveAll, tables_withdrawIfFree, Table.keys_update,
      Table.keys_mapVals, Table.wf_mapVals, Table.wf_put_iff]
    | with_reducible refine (tables_foldState _ (fun a s => ?_) _ _).trans ?_
    | split

theorem tables_releaseToIdle (r : Nat) (s : State) : (releaseToIdle r s).tables = s.tables := by
  unfold releaseToIdle
  repeat' first
    | with_reducible rfl
    | simp only [tables_mk, tables_sections, tables_pu, tables_ix, tables_tt, tables_tu, tables_vu, tables_ss,
      tables_fc, tables_idleRoute, tables_fullRelease, Table.keys_update, Table.keys_mapVals, Table.wf_mapVals,
      Table.wf_put_iff]
    | split

theorem tables_failRoute (r : Nat) (cause : FailCause) (s : State) : (failRoute r cause s).tables = s.tables := by
  unfold failRoute
  repeat' first
    | with_reducible rfl
    | simp only [tables_mk, tables_sections, tables_pu, tables_ix, tables_tt, tables_tu, tables_vu, tables_ss,
      tables_fc, tables_report, tables_hand, tables_releaseToIdle, Table.keys_update, Table.keys_mapVals,
      Table.wf_mapVals, Table.wf_put_iff]
    | split

theorem tables_testProof (r : Nat) (s : State) : (testProof r s).tables = s.tables := by
  unfold testProof
  repeat' first
    | with_reducible rfl
    | simp only [tables_mk, tables_sections, tables_pu, tables_ix, tables_tt, tables_tu, tables_vu, tables_ss,
      tables_fc, tables_changeRoute, Table.keys_update, Table.keys_mapVals, Table.wf_mapVals, Table.wf_put_iff]
    | split

theorem tables_askMove (r k : Nat) (e : BridgeEnd) (s : State) : (askMove r k e s).tables = s.tables := by
  unfold askMove
  repeat' first | with_reducible rfl | exact tables_requestMove ‹_› | exact (tables_setRoute _ _ _).trans (tables_requestMove ‹_›) | simp only [tables_hand] | split

theorem tables_enterSetting (r : Nat) (c : RouteCfg) (s : State) : (enterSetting r c s).tables = s.tables := by
  unfold enterSetting
  repeat' first
    | with_reducible rfl
    | simp only [tables_mk, tables_sections, tables_pu, tables_ix, tables_tt, tables_tu, tables_vu, tables_ss,
      tables_fc, tables_setSection, tables_setPoint, tables_setRoute, tables_setTurn, tables_throwPoint,
      tables_changeRoute, tables_testProof, tables_askMove, Table.keys_update, Table.keys_mapVals, Table.wf_mapVals,
      Table.wf_put_iff]
    | with_reducible refine (tables_foldState _ (fun a s => ?_) _ _).trans ?_
    | split

theorem tables_unrequest (s : State) (r : Nat) : (State.unrequest s r).tables = s.tables := by
  unfold State.unrequest
  repeat' first
    | with_reducible rfl
    | simp only [tables_mk, tables_sections, tables_pu, tables_ix, tables_tt, tables_tu, tables_vu, tables_ss,
      tables_fc, Table.keys_update, Table.keys_mapVals, Table.wf_mapVals, Table.wf_put_iff]
    | split

theorem tables_startRequest (r : Nat) (s : State) : (startRequest r s).tables = s.tables := by
  unfold startRequest
  repeat' first
    | with_reducible rfl
    | simp only [tables_mk, tables_sections, tables_pu, tables_ix, tables_tt, tables_tu, tables_vu, tables_ss,
      tables_fc, tables_hand, tables_unrequest, Table.keys_update, Table.keys_mapVals, Table.wf_mapVals,
      Table.wf_put_iff]
    | split

theorem tables_dropRequest (r : Nat) (cause : RequestDrop) (s : State) :
    (dropRequest r cause s).tables = s.tables := by
  unfold dropRequest
  repeat' first
    | with_reducible rfl
    | simp only [tables_mk, tables_sections, tables_pu, tables_ix, tables_tt, tables_tu, tables_vu, tables_ss,
      tables_fc, tables_report, tables_hand, tables_unrequest, Table.keys_update, Table.keys_mapVals,
      Table.wf_mapVals, Table.wf_put_iff]
    | split

theorem tables_visitRequest (q : Request) (s : State) : (visitRequest q s).tables = s.tables := by
  unfold visitRequest
  repeat' first
    | with_reducible rfl
    | simp only [tables_mk, tables_sections, tables_pu, tables_ix, tables_tt, tables_tu, tables_vu, tables_ss,
      tables_fc, tables_enterSetting, tables_startRequest, Table.keys_update, Table.keys_mapVals, Table.wf_mapVals,
      Table.wf_put_iff]
    | split

theorem tables_reexamine (s : State) : (reexamine s).tables = s.tables := by
  unfold reexamine
  repeat' first
    | with_reducible rfl
    | simp only [tables_mk, tables_sections, tables_pu, tables_ix, tables_tt, tables_tu, tables_vu, tables_ss,
      tables_fc, tables_visitRequest, Table.keys_update, Table.keys_mapVals, Table.wf_mapVals, Table.wf_put_iff]
    | with_reducible refine (tables_foldState _ (fun a s => ?_) _ _).trans ?_
    | split

theorem tables_storeRequest (r : Nat) (origin : Origin) (expiry : Option Nat) (s : State) :
    (storeRequest r origin expiry s).1.tables = s.tables := by
  unfold storeRequest; repeat' first | with_reducible rfl | simp only [tables_mk, tables_pu, tables_ix, tables_enterSetting, tables_report] | split

theorem tables_of_store {r : Nat} {origin : Origin} {expiry : Option Nat} {s s1 : State} {o : StoreOutcome}
    (h : storeRequest r origin expiry s = (s1, o)) : s1.tables = s.tables := by
  rw [← tables_storeRequest r origin expiry s, h]

theorem tables_withdrawRequests (origin : Origin) (s : State) : (withdrawRequests origin s).tables = s.tables := by
  unfold withdrawRequests
  repeat' first
    | with_reducible rfl
    | simp only [tables_mk, tables_sections, tables_pu, tables_ix, tables_tt, tables_tu, tables_vu, tables_ss,
      tables_fc, tables_dropRequest, Table.keys_update, Table.keys_mapVals, Table.wf_mapVals, Table.wf_put_iff]
    | with_reducible refine (tables_foldState _ (fun a s => ?_) _ _).trans ?_
    | split

theorem tables_idleIfFree (r : Nat) (s : State) : (idleIfFree r s).tables = s.tables := by
  unfold idleIfFree
  repeat' first
    | with_reducible rfl
    | simp only [tables_mk, tables_sections, tables_pu, tables_ix, tables_tt, tables_tu, tables_vu, tables_ss,
      tables_fc, tables_idleRoute, Table.keys_update, Table.keys_mapVals, Table.wf_mapVals, Table.wf_put_iff]
    | split

theorem tables_freeSection (r : Nat) (c : RouteCfg) (x : Nat) (s : State) :
    (freeSection r c x s).tables = s.tables := by
  unfold freeSection
  repeat' first
    | with_reducible rfl
    | simp only [tables_mk, tables_sections, tables_pu, tables_ix, tables_tt, tables_tu, tables_vu, tables_ss,
      tables_fc, tables_releaseSection, tables_reexamine, Table.keys_update, Table.keys_mapVals, Table.wf_mapVals,
      Table.wf_put_iff]
    | split

theorem tables_giveUp (r : Nat) (c : RouteCfg) (s : State) : (giveUp r c s).tables = s.tables := by
  unfold giveUp
  repeat' first
    | with_reducible rfl
    | simp only [tables_mk, tables_sections, tables_pu, tables_ix, tables_tt, tables_tu, tables_vu, tables_ss,
      tables_fc, tables_setRoute, tables_leaveAll, tables_reexamine, tables_freeSection, Table.keys_update,
      Table.keys_mapVals, Table.wf_mapVals, Table.wf_put_iff]
    | with_reducible refine (tables_foldState _ (fun a s => ?_) _ _).trans ?_
    | split

theorem tables_releaseBehind (r n : Nat) (q : RouteRec) (s : State) : (releaseBehind r n q s).tables = s.tables := by
  unfold releaseBehind
  repeat' first
    | with_reducible rfl
    | simp only [tables_mk, tables_sections, tables_pu, tables_ix, tables_tt, tables_tu, tables_vu, tables_ss,
      tables_fc, tables_freeSection, Table.keys_update, Table.keys_mapVals, Table.wf_mapVals, Table.wf_put_iff]
    | with_reducible refine (tables_foldState _ (fun a s => ?_) _ _).trans ?_
    | split

theorem tables_releaseFinal (r n : Nat) (q : RouteRec) (s : State) : (releaseFinal r n q s).tables = s.tables := by
  unfold releaseFinal
  repeat' first
    | with_reducible rfl
    | simp only [tables_mk, tables_sections, tables_pu, tables_ix, tables_tt, tables_tu, tables_vu, tables_ss,
      tables_fc, tables_leavePoint, tables_releaseSection, tables_reexamine, Table.keys_update, Table.keys_mapVals,
      Table.wf_mapVals, Table.wf_put_iff]
    | with_reducible refine (tables_foldState _ (fun a s => ?_) _ _).trans ?_
    | split

theorem tables_releaseOverlap (r n : Nat) (q : RouteRec) (s : State) :
    (releaseOverlap r n q s).tables = s.tables := by
  unfold releaseOverlap
  repeat' first
    | with_reducible rfl
    | simp only [tables_mk, tables_sections, tables_pu, tables_ix, tables_tt, tables_tu, tables_vu, tables_ss,
      tables_fc, tables_freeSection, Table.keys_update, Table.keys_mapVals, Table.wf_mapVals, Table.wf_put_iff]
    | with_reducible refine (tables_foldState _ (fun a s => ?_) _ _).trans ?_
    | split

theorem tables_releaseRemoved (r n : Nat) (q : RouteRec) (x : Nat) (s : State) :
    (releaseRemoved r n q x s).tables = s.tables := by
  unfold releaseRemoved
  repeat' first
    | with_reducible rfl
    | simp only [tables_mk, tables_sections, tables_pu, tables_ix, tables_tt, tables_tu, tables_vu, tables_ss,
      tables_fc, tables_freeSection, tables_releaseFinal, Table.keys_update, Table.keys_mapVals, Table.wf_mapVals,
      Table.wf_put_iff]
    | split

theorem tables_judgeReleases (removed : Option Nat) (r : Nat) (s : State) :
    (judgeReleases removed r s).tables = s.tables := by
  unfold judgeReleases
  repeat' first
    | with_reducible rfl
    | simp only [tables_mk, tables_sections, tables_pu, tables_ix, tables_tt, tables_tu, tables_vu, tables_ss,
      tables_fc, tables_idleIfFree, tables_giveUp, tables_releaseBehind, tables_releaseFinal, tables_releaseOverlap,
      tables_releaseRemoved, Table.keys_update, Table.keys_mapVals, Table.wf_mapVals, Table.wf_put_iff]
    | split

theorem tables_judgeDwell (r : Nat) (s : State) : (judgeDwell r s).tables = s.tables := by
  unfold judgeDwell
  repeat' first
    | with_reducible rfl
    | simp only [tables_mk, tables_sections, tables_pu, tables_ix, tables_tt, tables_tu, tables_vu, tables_ss,
      tables_fc, tables_setRoute, Table.keys_update, Table.keys_mapVals, Table.wf_mapVals, Table.wf_put_iff]
    | split

theorem tables_overlapRelease (r : Nat) (s : State) : (overlapRelease r s).tables = s.tables := by
  unfold overlapRelease
  repeat' first
    | with_reducible rfl
    | simp only [tables_mk, tables_sections, tables_pu, tables_ix, tables_tt, tables_tu, tables_vu, tables_ss,
      tables_fc, tables_setRoute, tables_judgeReleases, Table.keys_update, Table.keys_mapVals, Table.wf_mapVals,
      Table.wf_put_iff]
    | split

theorem tables_startOverlap (r x : Nat) (s : State) : (startOverlap r x s).tables = s.tables := by
  unfold startOverlap
  repeat' first
    | with_reducible rfl
    | simp only [tables_mk, tables_sections, tables_pu, tables_ix, tables_tt, tables_tu, tables_vu, tables_ss,
      tables_fc, tables_setRoute, tables_overlapRelease, Table.keys_update, Table.keys_mapVals, Table.wf_mapVals,
      Table.wf_put_iff]
    | split

theorem tables_occupyRoute (n r : Nat) (s : State) : (occupyRoute n r s).tables = s.tables := by
  unfold occupyRoute
  repeat' first
    | with_reducible rfl
    | simp only [tables_mk, tables_sections, tables_pu, tables_ix, tables_tt, tables_tu, tables_vu, tables_ss,
      tables_fc, tables_changeRoute, Table.keys_update, Table.keys_mapVals, Table.wf_mapVals, Table.wf_put_iff]
    | split

theorem tables_appendToRoute (x r : Nat) (s : State) : (appendToRoute x r s).tables = s.tables := by
  unfold appendToRoute
  repeat' first
    | with_reducible rfl
    | simp only [tables_mk, tables_sections, tables_pu, tables_ix, tables_tt, tables_tu, tables_vu, tables_ss,
      tables_fc, tables_setRoute, tables_judgeReleases, tables_judgeDwell, tables_startOverlap, Table.keys_update,
      Table.keys_mapVals, Table.wf_mapVals, Table.wf_put_iff]
    | split

theorem tables_ixAppend (n x : Nat) (prev : Option ListEntry) (s : State) :
    (ixAppend n x prev s).tables = s.tables := by
  unfold ixAppend
  repeat' first
    | with_reducible rfl
    | simp only [tables_mk, tables_sections, tables_pu, tables_ix, tables_tt, tables_tu, tables_vu, tables_ss,
      tables_fc, tables_occupyRoute, tables_appendToRoute, Table.keys_update, Table.keys_mapVals, Table.wf_mapVals,
      Table.wf_put_iff]
    | with_reducible refine (tables_foldState _ (fun a s => ?_) _ _).trans ?_
    | split

theorem tables_ixListChange (n : Nat) (removed : Option Nat) (s : State) :
    (ixListChange n removed s).tables = s.tables := by
  unfold ixListChange
  repeat' first
    | with_reducible rfl
    | simp only [tables_mk, tables_sections, tables_pu, tables_ix, tables_tt, tables_tu, tables_vu, tables_ss,
      tables_fc, tables_judgeReleases, tables_judgeDwell, Table.keys_update, Table.keys_mapVals, Table.wf_mapVals,
      Table.wf_put_iff]
    | with_reducible refine (tables_foldState _ (fun a s => ?_) _ _).trans ?_
    | split

theorem tables_ixLoss (n : Nat) (s : State) : (ixLoss n s).tables = s.tables := by
  unfold ixLoss
  repeat' first
    | with_reducible rfl
    | simp only [tables_mk, tables_sections, tables_pu, tables_ix, tables_tt, tables_tu, tables_vu, tables_ss,
      tables_fc, tables_judgeDwell, Table.keys_update, Table.keys_mapVals, Table.wf_mapVals, Table.wf_put_iff]
    | with_reducible refine (tables_foldState _ (fun a s => ?_) _ _).trans ?_
    | split

theorem tables_ixTrainGone (n : Nat) (s : State) : (ixTrainGone n s).tables = s.tables := by
  unfold ixTrainGone
  repeat' first
    | with_reducible rfl
    | simp only [tables_mk, tables_sections, tables_pu, tables_ix, tables_tt, tables_tu, tables_vu, tables_ss,
      tables_fc, tables_setRoute, tables_idleIfFree, tables_giveUp, Table.keys_update, Table.keys_mapVals,
      Table.wf_mapVals, Table.wf_put_iff]
    | with_reducible refine (tables_foldState _ (fun a s => ?_) _ _).trans ?_
    | split

theorem tables_ixClear (x : Nat) (s : State) : (ixClear x s).tables = s.tables := by
  unfold ixClear
  repeat' first
    | with_reducible rfl
    | simp only [tables_mk, tables_sections, tables_pu, tables_ix, tables_tt, tables_tu, tables_vu, tables_ss,
      tables_fc, tables_askReexamine, tables_idleIfFree, tables_freeSection, Table.keys_update, Table.keys_mapVals,
      Table.wf_mapVals, Table.wf_put_iff]
    | split

theorem tables_ixPoint (p : Nat) (e : PointEvent) (s : State) : (ixPoint p e s).tables = s.tables := by
  unfold ixPoint
  repeat' first
    | with_reducible rfl
    | simp only [tables_mk, tables_sections, tables_pu, tables_ix, tables_tt, tables_tu, tables_vu, tables_ss,
      tables_fc, tables_askReexamine, tables_failRoute, tables_testProof, Table.keys_update, Table.keys_mapVals,
      Table.wf_mapVals, Table.wf_put_iff]
    | with_reducible refine (tables_foldState _ (fun a s => ?_) _ _).trans ?_
    | split

theorem tables_ixBridge (s : State) : (ixBridge s).tables = s.tables := by
  unfold ixBridge
  repeat' first
    | with_reducible rfl
    | simp only [tables_mk, tables_sections, tables_pu, tables_ix, tables_tt, tables_tu, tables_vu, tables_ss,
      tables_fc, tables_askReexamine, tables_failRoute, tables_testProof, Table.keys_update, Table.keys_mapVals,
      Table.wf_mapVals, Table.wf_put_iff]
    | with_reducible refine (tables_foldState _ (fun a s => ?_) _ _).trans ?_
    | split

theorem tables_ixMoveEnded (r : Nat) (s : State) : (ixMoveEnded r s).tables = s.tables := by
  unfold ixMoveEnded
  repeat' first
    | with_reducible rfl
    | simp only [tables_mk, tables_sections, tables_pu, tables_ix, tables_tt, tables_tu, tables_vu, tables_ss,
      tables_fc, tables_failRoute, Table.keys_update, Table.keys_mapVals, Table.wf_mapVals, Table.wf_put_iff]
    | split

theorem tables_routesStop (s : State) : (routesStop s).tables = s.tables := by
  unfold routesStop
  repeat' first
    | with_reducible rfl
    | simp only [tables_mk, tables_sections, tables_pu, tables_ix, tables_tt, tables_tu, tables_vu, tables_ss,
      tables_fc, tables_failRoute, Table.keys_update, Table.keys_mapVals, Table.wf_mapVals, Table.wf_put_iff]
    | with_reducible refine (tables_foldState _ (fun a s => ?_) _ _).trans ?_
    | split

theorem tables_dropAllRequests (s : State) : (dropAllRequests s).tables = s.tables := by
  unfold dropAllRequests
  repeat' first
    | with_reducible rfl
    | simp only [tables_mk, tables_sections, tables_pu, tables_ix, tables_tt, tables_tu, tables_vu, tables_ss,
      tables_fc, tables_dropRequest, Table.keys_update, Table.keys_mapVals, Table.wf_mapVals, Table.wf_put_iff]
    | with_reducible refine (tables_foldState _ (fun a s => ?_) _ _).trans ?_
    | split

theorem tables_settingExpiry (r : Nat) (s : State) : (settingExpiry r s).tables = s.tables := by
  unfold settingExpiry
  repeat' first
    | with_reducible rfl
    | simp only [tables_mk, tables_sections, tables_pu, tables_ix, tables_tt, tables_tu, tables_vu, tables_ss,
      tables_fc, tables_expire, tables_failRoute, Table.keys_update, Table.keys_mapVals, Table.wf_mapVals,
      Table.wf_put_iff]
    | split

theorem tables_approachExpiry (r : Nat) (s : State) : (approachExpiry r s).tables = s.tables := by
  unfold approachExpiry
  repeat' first
    | with_reducible rfl
    | simp only [tables_mk, tables_sections, tables_pu, tables_ix, tables_tt, tables_tu, tables_vu, tables_ss,
      tables_fc, tables_expire, tables_releaseToIdle, Table.keys_update, Table.keys_mapVals, Table.wf_mapVals,
      Table.wf_put_iff]
    | split

theorem tables_requestExpiry (r : Nat) (s : State) : (requestExpiry r s).tables = s.tables := by
  unfold requestExpiry
  repeat' first
    | with_reducible rfl
    | simp only [tables_mk, tables_sections, tables_pu, tables_ix, tables_tt, tables_tu, tables_vu, tables_ss,
      tables_fc, tables_expire, tables_dropRequest, Table.keys_update, Table.keys_mapVals, Table.wf_mapVals,
      Table.wf_put_iff]
    | split

theorem tables_overlapExpiry (r : Nat) (s : State) : (overlapExpiry r s).tables = s.tables := by
  unfold overlapExpiry
  repeat' first
    | with_reducible rfl
    | simp only [tables_mk, tables_sections, tables_pu, tables_ix, tables_tt, tables_tu, tables_vu, tables_ss,
      tables_fc, tables_expire, tables_overlapRelease, Table.keys_update, Table.keys_mapVals, Table.wf_mapVals,
      Table.wf_put_iff]
    | split

theorem tables_dwellExpiry (r : Nat) (s : State) : (dwellExpiry r s).tables = s.tables := by
  unfold dwellExpiry
  repeat' first
    | with_reducible rfl
    | simp only [tables_mk, tables_sections, tables_pu, tables_ix, tables_tt, tables_tu, tables_vu, tables_ss,
      tables_fc, tables_expire, tables_overlapRelease, Table.keys_update, Table.keys_mapVals, Table.wf_mapVals,
      Table.wf_put_iff]
    | split

theorem tables_cmdRouteSet (r : Nat) (s : State) : (cmdRouteSet r s).1.tables = s.tables := by
  unfold cmdRouteSet
  repeat' first
    | with_reducible rfl
    | simp only [tables_mk, tables_sections, tables_pu, tables_ix, tables_tt, tables_tu, tables_vu, tables_ss,
      tables_fc, tables_enterSetting, tables_startRequest, Table.keys_update, Table.keys_mapVals, Table.wf_mapVals,
      Table.wf_put_iff]
    | split

theorem tables_cmdRouteStore (r : Nat) (s : State) : (cmdRouteStore r s).1.tables = s.tables := by
  unfold cmdRouteStore; split <;> exact tables_of_store ‹_›

theorem tables_cmdRouteCan (r : Nat) (s : State) : (cmdRouteCan r s).1.tables = s.tables := by
  unfold cmdRouteCan
  repeat' first
    | with_reducible rfl
    | simp only [tables_mk, tables_sections, tables_pu, tables_ix, tables_tt, tables_tu, tables_vu, tables_ss,
      tables_fc, tables_changeRoute, tables_releaseToIdle, tables_dropRequest, Table.keys_update,
      Table.keys_mapVals, Table.wf_mapVals, Table.wf_put_iff]
    | split

theorem tables_changeHolds (n : Nat) (f : TrainRec → TrainRec) (s : State) :
    (changeHolds n f s).tables = s.tables := by
  unfold changeHolds
  repeat' first
    | with_reducible rfl
    | simp only [tables_mk, tables_sections, tables_pu, tables_ix, tables_tt, tables_tu, tables_vu, tables_ss,
      tables_fc, tables_hand, tables_setTrain, Table.keys_update, Table.keys_mapVals, Table.wf_mapVals,
      Table.wf_put_iff]
    | split

theorem tables_endAmbiguity (x : Nat) (s : State) : (endAmbiguity x s).tables = s.tables := by
  unfold endAmbiguity
  repeat' first
    | with_reducible rfl
    | simp only [tables_mk, tables_sections, tables_pu, tables_ix, tables_tt, tables_tu, tables_vu, tables_ss,
      tables_fc, tables_changeHolds, Table.keys_update, Table.keys_mapVals, Table.wf_mapVals, Table.wf_put_iff]
    | with_reducible refine (tables_foldState _ (fun a s => ?_) _ _).trans ?_
    | split

theorem tables_placement (n : Nat) (s : State) : (placement n s).tables = s.tables := by
  unfold placement
  repeat' first | with_reducible rfl | exact tables_of_store ‹_› | (simp only [tables_setMark]; exact tables_of_store ‹_›) | split

theorem tables_ttRequestStarted (r : Nat) (s : State) : (ttRequestStarted r s).tables = s.tables := by
  unfold ttRequestStarted
  repeat' first
    | with_reducible rfl
    | simp only [tables_mk, tables_sections, tables_pu, tables_ix, tables_tt, tables_tu, tables_vu, tables_ss,
      tables_fc, tables_setMark, Table.keys_update, Table.keys_mapVals, Table.wf_mapVals, Table.wf_put_iff]
    | with_reducible refine (tables_foldState _ (fun a s => ?_) _ _).trans ?_
    | split

theorem tables_ttRequestDropped (r : Nat) (s : State) : (ttRequestDropped r s).tables = s.tables := by
  unfold ttRequestDropped
  repeat' first
    | with_reducible rfl
    | simp only [tables_mk, tables_sections, tables_pu, tables_ix, tables_tt, tables_tu, tables_vu, tables_ss,
      tables_fc, tables_setMark, Table.keys_update, Table.keys_mapVals, Table.wf_mapVals, Table.wf_put_iff]
    | with_reducible refine (tables_foldState _ (fun a s => ?_) _ _).trans ?_
    | split

theorem tables_ttRouteChange (r : Nat) (st : RouteState) (s : State) : (ttRouteChange r st s).tables = s.tables := by
  unfold ttRouteChange
  repeat' first
    | with_reducible rfl
    | simp only [tables_mk, tables_sections, tables_pu, tables_ix, tables_tt, tables_tu, tables_vu, tables_ss,
      tables_fc, tables_hand, tables_handAll, tables_setTrain, tables_setMark, Table.keys_update,
      Table.keys_mapVals, Table.wf_mapVals, Table.wf_put_iff]
    | with_reducible refine (tables_foldState _ (fun a s => ?_) _ _).trans ?_
    | split

theorem tables_passSignal (n g : Nat) (a : Aspect) (s : State) : (passSignal n g a s).tables = s.tables := by
  unfold passSignal
  repeat' first
    | with_reducible rfl
    | simp only [tables_mk, tables_sections, tables_pu, tables_ix, tables_tt, tables_tu, tables_vu, tables_ss,
      tables_fc, tables_report, tables_hand, tables_setTrain, tables_changeHolds, Table.keys_update,
      Table.keys_mapVals, Table.wf_mapVals, Table.wf_put_iff]
    | split

theorem tables_judgePass (n x : Nat) (e : EndName) (aspect : Nat → Aspect) (s : State) :
    (judgePass n x e aspect s).tables = s.tables := by
  unfold judgePass
  repeat' first
    | with_reducible rfl
    | simp only [tables_mk, tables_sections, tables_pu, tables_ix, tables_tt, tables_tu, tables_vu, tables_ss,
      tables_fc, tables_passSignal, Table.keys_update, Table.keys_mapVals, Table.wf_mapVals, Table.wf_put_iff]
    | split

theorem tables_judgeLost (n : Nat) (s : State) : (judgeLost n s).tables = s.tables := by
  unfold judgeLost
  repeat' first
    | with_reducible rfl
    | simp only [tables_mk, tables_sections, tables_pu, tables_ix, tables_tt, tables_tu, tables_vu, tables_ss,
      tables_fc, tables_setTrain, Table.keys_update, Table.keys_mapVals, Table.wf_mapVals, Table.wf_put_iff]
    | split

theorem tables_removeTrailing (n : Nat) (s : State) : (removeTrailing n s).tables = s.tables := by
  unfold removeTrailing
  repeat' first
    | with_reducible rfl
    | simp only [tables_mk, tables_sections, tables_pu, tables_ix, tables_tt, tables_tu, tables_vu, tables_ss,
      tables_fc, tables_hand, tables_setTrain, tables_ixListChange, Table.keys_update, Table.keys_mapVals,
      Table.wf_mapVals, Table.wf_put_iff]
    | split

theorem tables_trimList (k n : Nat) (s : State) : (trimList k n s).tables = s.tables := by
  induction k generalizing s with
  | zero => rfl
  | succ k ih => unfold trimList; repeat' first | with_reducible rfl | simp only [tables_removeTrailing, ih] | split

theorem tables_trailing (n : Nat) (s : State) : (trailing n s).tables = s.tables := by
  unfold trailing
  repeat' first
    | with_reducible rfl
    | simp only [tables_mk, tables_sections, tables_pu, tables_ix, tables_tt, tables_tu, tables_vu, tables_ss,
      tables_fc, tables_judgeLost, tables_trimList, Table.keys_update, Table.keys_mapVals, Table.wf_mapVals,
      Table.wf_put_iff]
    | split

theorem tables_claim (n x : Nat) (f : EndName) (aspect : Nat → Aspect) (s : State) :
    (claim n x f aspect s).tables = s.tables := by
  unfold claim
  repeat' first
    | with_reducible rfl
    | simp only [tables_mk, tables_sections, tables_pu, tables_ix, tables_tt, tables_tu, tables_vu, tables_ss,
      tables_fc, tables_report, tables_hand, tables_setTrain, tables_ixAppend, tables_endAmbiguity,
      tables_judgePass, tables_removeTrailing, Table.keys_update, Table.keys_mapVals, Table.wf_mapVals,
      Table.wf_put_iff]
    | split

theorem tables_markAmbiguous (x : Nat) (ns : List Nat) (s : State) : (markAmbiguous x ns s).tables = s.tables := by
  unfold markAmbiguous
  repeat' first
    | with_reducible rfl
    | simp only [tables_mk, tables_sections, tables_pu, tables_ix, tables_tt, tables_tu, tables_vu, tables_ss,
      tables_fc, tables_report, tables_changeHolds, Table.keys_update, Table.keys_mapVals, Table.wf_mapVals,
      Table.wf_put_iff]
    | with_reducible refine (tables_foldState _ (fun a s => ?_) _ _).trans ?_
    | split

theorem tables_settled (n x : Nat) (s : State) : (settled n x s).tables = s.tables := by
  unfold settled
  repeat' first
    | with_reducible rfl
    | simp only [tables_mk, tables_sections, tables_pu, tables_ix, tables_tt, tables_tu, tables_vu, tables_ss,
      tables_fc, tables_hand, tables_carryPlaced, Table.keys_update, Table.keys_mapVals, Table.wf_mapVals,
      Table.wf_put_iff]
    | split

theorem tables_refind (n x : Nat) (s : State) : (refind n x s).tables = s.tables := by
  unfold refind
  repeat' first
    | with_reducible rfl
    | simp only [tables_mk, tables_sections, tables_pu, tables_ix, tables_tt, tables_tu, tables_vu, tables_ss,
      tables_fc, tables_report, tables_setTrain, tables_ixAppend, tables_endAmbiguity, tables_judgePass,
      tables_settled, Table.keys_update, Table.keys_mapVals, Table.wf_mapVals, Table.wf_put_iff]
    | split

theorem tables_findLost (x : Nat) (s : State) : (findLost x s).tables = s.tables := by
  unfold findLost
  repeat' first
    | with_reducible rfl
    | simp only [tables_mk, tables_sections, tables_pu, tables_ix, tables_tt, tables_tu, tables_vu, tables_ss,
      tables_fc, tables_report, tables_refind, Table.keys_update, Table.keys_mapVals, Table.wf_mapVals,
      Table.wf_put_iff]
    | split

theorem tables_takeSection (x : Nat) (aspect : Nat → Aspect) (s : State) :
    (takeSection x aspect s).tables = s.tables := by
  unfold takeSection
  repeat' first
    | with_reducible rfl
    | simp only [tables_mk, tables_sections, tables_pu, tables_ix, tables_tt, tables_tu, tables_vu, tables_ss,
      tables_fc, tables_claim, tables_markAmbiguous, tables_findLost, Table.keys_update, Table.keys_mapVals,
      Table.wf_mapVals, Table.wf_put_iff]
    | split

theorem tables_trackOccupied (x : Nat) (before : List (Nat × Aspect)) (s : State) :
    (trackOccupied x before s).tables = s.tables := by
  unfold trackOccupied
  repeat' first
    | with_reducible rfl
    | simp only [tables_mk, tables_sections, tables_pu, tables_ix, tables_tt, tables_tu, tables_vu, tables_ss,
      tables_fc, tables_setTrain, tables_takeSection, Table.keys_update, Table.keys_mapVals, Table.wf_mapVals,
      Table.wf_put_iff]
    | split

theorem tables_trackClear (x : Nat) (s : State) : (trackClear x s).tables = s.tables := by
  unfold trackClear
  repeat' first
    | with_reducible rfl
    | simp only [tables_mk, tables_sections, tables_pu, tables_ix, tables_tt, tables_tu, tables_vu, tables_ss,
      tables_fc, tables_endAmbiguity, tables_trailing, Table.keys_update, Table.keys_mapVals, Table.wf_mapVals,
      Table.wf_put_iff]
    | split

theorem tables_dropReplacement (n : Nat) (s : State) : (dropReplacement n s).tables = s.tables := by
  unfold dropReplacement
  repeat' first
    | with_reducible rfl
    | simp only [tables_mk, tables_sections, tables_pu, tables_ix, tables_tt, tables_tu, tables_vu, tables_ss,
      tables_fc, Table.keys_update, Table.keys_mapVals, Table.wf_mapVals, Table.wf_put_iff]
    | split

theorem tables_lostExpiry (n : Nat) (s : State) : (lostExpiry n s).tables = s.tables := by
  unfold lostExpiry
  repeat' first
    | with_reducible rfl
    | simp only [tables_mk, tables_sections, tables_pu, tables_ix, tables_tt, tables_tu, tables_vu, tables_ss,
      tables_fc, tables_expire, tables_report, tables_hand, tables_dropCarried, tables_withdrawRequests,
      tables_ixLoss, tables_changeHolds, tables_dropReplacement, Table.keys_update, Table.keys_mapVals,
      Table.wf_mapVals, Table.wf_put_iff]
    | split

theorem tables_unplace (n : Nat) (e : TrainEvent) (s : State) : (unplace n e s).tables = s.tables := by
  unfold unplace
  repeat' first
    | with_reducible rfl
    | simp only [tables_mk, tables_sections, tables_pu, tables_ix, tables_tt, tables_tu, tables_vu, tables_ss,
      tables_fc, tables_report, tables_hand, tables_dropCarried, tables_withdrawRequests, tables_ixTrainGone,
      tables_changeHolds, tables_dropReplacement, Table.keys_update, Table.keys_mapVals, Table.wf_mapVals,
      Table.wf_put_iff]
    | split

theorem tables_completeReversal (n : Nat) (s : State) : (completeReversal n s).tables = s.tables := by
  unfold completeReversal
  repeat' first
    | with_reducible rfl
    | simp only [tables_mk, tables_sections, tables_pu, tables_ix, tables_tt, tables_tu, tables_vu, tables_ss,
      tables_fc, tables_report, tables_hand, tables_setTrain, tables_ixListChange, tables_changeHolds,
      tables_trailing, Table.keys_update, Table.keys_mapVals, Table.wf_mapVals, Table.wf_put_iff]
    | split

theorem tables_ttStepChange (n : Nat) (s : State) : (ttStepChange n s).tables = s.tables := by
  unfold ttStepChange
  repeat' first
    | with_reducible rfl
    | simp only [tables_mk, tables_sections, tables_pu, tables_ix, tables_tt, tables_tu, tables_vu, tables_ss,
      tables_fc, tables_completeReversal, Table.keys_update, Table.keys_mapVals, Table.wf_mapVals, Table.wf_put_iff]
    | split

theorem tables_freezeTracking (s : State) : (freezeTracking s).tables = s.tables := by
  unfold freezeTracking
  repeat' first
    | with_reducible rfl
    | simp only [tables_mk, tables_sections, tables_pu, tables_ix, tables_tt, tables_tu, tables_vu, tables_ss,
      tables_fc, Table.keys_update, Table.keys_mapVals, Table.wf_mapVals, Table.wf_put_iff]
    | split

theorem tables_resumption (s : State) : (resumption s).tables = s.tables := by
  unfold resumption
  repeat' first
    | with_reducible rfl
    | simp only [tables_mk, tables_sections, tables_pu, tables_ix, tables_tt, tables_tu, tables_vu, tables_ss,
      tables_fc, tables_handAll, tables_setTrain, tables_refreshSignals, tables_judgeLost, tables_trailing,
      Table.keys_update, Table.keys_mapVals, Table.wf_mapVals, Table.wf_put_iff]
    | with_reducible refine (tables_foldState _ (fun a s => ?_) _ _).trans ?_
    | split

theorem tables_cmdTrainPlace (n x : Nat) (e : Option EndName) (s : State) :
    (cmdTrainPlace n x e s).1.tables = s.tables := by
  unfold cmdTrainPlace
  repeat' first
    | with_reducible rfl
    | simp only [tables_mk, tables_sections, tables_pu, tables_ix, tables_tt, tables_tu, tables_vu, tables_ss,
      tables_fc, tables_report, tables_ixAppend, tables_changeHolds, tables_endAmbiguity, tables_judgeLost,
      tables_settled, Table.keys_update, Table.keys_mapVals, Table.wf_mapVals, Table.wf_put_iff]
    | split

theorem tables_cmdTrainRemove (n : Nat) (s : State) : (cmdTrainRemove n s).1.tables = s.tables := by
  unfold cmdTrainRemove
  repeat' first
    | with_reducible rfl
    | simp only [tables_mk, tables_sections, tables_pu, tables_ix, tables_tt, tables_tu, tables_vu, tables_ss,
      tables_fc, tables_unplace, Table.keys_update, Table.keys_mapVals, Table.wf_mapVals, Table.wf_put_iff]
    | split

theorem tables_cmdTrainSpeed (n v : Nat) (s : State) : (cmdTrainSpeed n v s).1.tables = s.tables := by
  unfold cmdTrainSpeed
  repeat' first
    | with_reducible rfl
    | simp only [tables_mk, tables_sections, tables_pu, tables_ix, tables_tt, tables_tu, tables_vu, tables_ss,
      tables_fc, tables_setTrain, Table.keys_update, Table.keys_mapVals, Table.wf_mapVals, Table.wf_put_iff]
    | split

theorem tables_cmdTrainReverse (n : Nat) (s : State) : (cmdTrainReverse n s).1.tables = s.tables := by
  unfold cmdTrainReverse
  repeat' first
    | with_reducible rfl
    | simp only [tables_mk, tables_sections, tables_pu, tables_ix, tables_tt, tables_tu, tables_vu, tables_ss,
      tables_fc, tables_changeHolds, tables_completeReversal, Table.keys_update, Table.keys_mapVals,
      Table.wf_mapVals, Table.wf_put_iff]
    | split

theorem tables_resolveAmbiguity (n x : Nat) (s : State) : (resolveAmbiguity n x s).tables = s.tables := by
  unfold resolveAmbiguity
  repeat' first
    | with_reducible rfl
    | simp only [tables_mk, tables_sections, tables_pu, tables_ix, tables_tt, tables_tu, tables_vu, tables_ss,
      tables_fc, tables_endAmbiguity, tables_claim, Table.keys_update, Table.keys_mapVals, Table.wf_mapVals,
      Table.wf_put_iff]
    | split

theorem tables_cmdTrainRelease (n : Nat) (s : State) : (cmdTrainRelease n s).1.tables = s.tables := by
  unfold cmdTrainRelease
  repeat' first
    | with_reducible rfl
    | simp only [tables_mk, tables_sections, tables_pu, tables_ix, tables_tt, tables_tu, tables_vu, tables_ss,
      tables_fc, tables_report, tables_changeHolds, tables_resolveAmbiguity, Table.keys_update, Table.keys_mapVals,
      Table.wf_mapVals, Table.wf_put_iff]
    | split

theorem tables_cmdTrainRunlist (n : Nat) (mode : RunMode) (routes : List Nat) (s : State) :
    (cmdTrainRunlist n mode routes s).1.tables = s.tables := by
  unfold cmdTrainRunlist
  repeat' first
    | with_reducible rfl
    | simp only [tables_mk, tables_sections, tables_pu, tables_ix, tables_tt, tables_tu, tables_vu, tables_ss,
      tables_fc, tables_hand, tables_setTrain, tables_withdrawRequests, Table.keys_update, Table.keys_mapVals,
      Table.wf_mapVals, Table.wf_put_iff]
    | split

theorem tables_onShowTrain (w : ShowRec) (f : Nat → State → State) (h : ∀ n s, (f n s).tables = s.tables) (s : State) :
    (onShowTrain w f s).tables = s.tables := by
  unfold onShowTrain; repeat' first | with_reducible rfl | simp only [h] | split

theorem tables_setDemand (v n : Nat) (s : State) : (setDemand v n s).tables = s.tables := by
  unfold setDemand
  repeat' first
    | with_reducible rfl
    | simp only [tables_mk, tables_sections, tables_pu, tables_ix, tables_tt, tables_tu, tables_vu, tables_ss,
      tables_fc, tables_setTrain, Table.keys_update, Table.keys_mapVals, Table.wf_mapVals, Table.wf_put_iff]
    | split

theorem tables_setShowWait (v : Bool) (n : Nat) (s : State) : (setShowWait v n s).tables = s.tables := by
  unfold setShowWait
  repeat' first
    | with_reducible rfl
    | simp only [tables_mk, tables_sections, tables_pu, tables_ix, tables_tt, tables_tu, tables_vu, tables_ss,
      tables_fc, tables_changeHolds, Table.keys_update, Table.keys_mapVals, Table.wf_mapVals, Table.wf_put_iff]
    | split

theorem tables_unwait (s : State) (n : Nat) : (State.unwait s n).tables = s.tables := by
  unfold State.unwait
  repeat' first
    | with_reducible rfl
    | simp only [tables_mk, tables_sections, tables_pu, tables_ix, tables_tt, tables_tu, tables_vu, tables_ss,
      tables_fc, Table.keys_update, Table.keys_mapVals, Table.wf_mapVals, Table.wf_put_iff]
    | split

theorem tables_changeShow (n : Nat) (st : ShowState) (f : ShowRec → ShowRec) (s : State) :
    (changeShow n st f s).tables = s.tables := by
  unfold changeShow
  repeat' first
    | with_reducible rfl
    | simp only [tables_mk, tables_sections, tables_pu, tables_ix, tables_tt, tables_tu, tables_vu, tables_ss,
      tables_fc, tables_report, tables_setShow, Table.keys_update, Table.keys_mapVals, Table.wf_mapVals,
      Table.wf_put_iff]
    | split

theorem tables_judgeAvailable (n : Nat) (s : State) : (judgeAvailable n s).tables = s.tables := by
  unfold judgeAvailable
  repeat' first
    | with_reducible rfl
    | simp only [tables_mk, tables_sections, tables_pu, tables_ix, tables_tt, tables_tu, tables_vu, tables_ss,
      tables_fc, tables_unwait, tables_changeShow, Table.keys_update, Table.keys_mapVals, Table.wf_mapVals,
      Table.wf_put_iff]
    | split

theorem tables_enterDwell (n : Nat) (w : ShowRec) (s : State) : (enterDwell n w s).tables = s.tables := by
  unfold enterDwell
  repeat' first
    | with_reducible rfl
    | simp only [tables_mk, tables_sections, tables_pu, tables_ix, tables_tt, tables_tu, tables_vu, tables_ss,
      tables_fc, tables_hand, tables_setShow, Table.keys_update, Table.keys_mapVals, Table.wf_mapVals,
      Table.wf_put_iff]
    | split

theorem tables_enterRun (n : Nat) (w : ShowRec) (s : State) : (enterRun n w s).tables = s.tables := by
  unfold enterRun
  repeat' first
    | with_reducible rfl
    | simp only [tables_mk, tables_sections, tables_pu, tables_ix, tables_tt, tables_tu, tables_vu, tables_ss,
      tables_fc, tables_setShow, tables_setDemand, tables_setShowWait, Table.keys_update, Table.keys_mapVals,
      Table.wf_mapVals, Table.wf_put_iff]
    | with_reducible refine (tables_onShowTrain _ _ (fun n s => ?_) _).trans ?_
    | split

theorem tables_setStorePending (n : Nat) (v : Bool) (s : State) : (setStorePending n v s).tables = s.tables := by
  unfold setStorePending
  repeat' first
    | with_reducible rfl
    | simp only [tables_mk, tables_sections, tables_pu, tables_ix, tables_tt, tables_tu, tables_vu, tables_ss,
      tables_fc, tables_setShow, Table.keys_update, Table.keys_mapVals, Table.wf_mapVals, Table.wf_put_iff]
    | split

theorem tables_storeLeg (n r : Nat) (w : ShowRec) (s : State) : (storeLeg n r w s).tables = s.tables := by
  unfold storeLeg
  split
  all_goals
    first
    | exact tables_of_store ‹_›
    | (simp only [tables_setStorePending]; exact tables_of_store ‹_›)
    | (split <;> simp only [tables_enterRun, tables_setStorePending] <;> exact tables_of_store ‹_›)

theorem tables_enterRouteWait (n r : Nat) (w : ShowRec) (s : State) : (enterRouteWait n r w s).tables = s.tables := by
  unfold enterRouteWait
  repeat' first
    | with_reducible rfl
    | simp only [tables_mk, tables_sections, tables_pu, tables_ix, tables_tt, tables_tu, tables_vu, tables_ss,
      tables_fc, tables_setShow, tables_setDemand, tables_setShowWait, tables_storeLeg, Table.keys_update,
      Table.keys_mapVals, Table.wf_mapVals, Table.wf_put_iff]
    | with_reducible refine (tables_onShowTrain _ _ (fun n s => ?_) _).trans ?_
    | split

theorem tables_beginLeg (n i : Nat) (s : State) : (beginLeg n i s).tables = s.tables := by
  unfold beginLeg
  repeat' first
    | with_reducible rfl
    | simp only [tables_mk, tables_sections, tables_pu, tables_ix, tables_tt, tables_tu, tables_vu, tables_ss,
      tables_fc, tables_report, tables_setShow, tables_enterDwell, tables_enterRouteWait, Table.keys_update,
      Table.keys_mapVals, Table.wf_mapVals, Table.wf_put_iff]
    | split

theorem tables_takeDriver (n t : Nat) (s : State) : (takeDriver n t s).tables = s.tables := by
  unfold takeDriver
  repeat' first
    | with_reducible rfl
    | simp only [tables_mk, tables_sections, tables_pu, tables_ix, tables_tt, tables_tu, tables_vu, tables_ss,
      tables_fc, tables_setTrain, tables_withdrawRequests, Table.keys_update, Table.keys_mapVals, Table.wf_mapVals,
      Table.wf_put_iff]
    | split

theorem tables_startShow (n : Nat) (w : ShowRec) (s : State) : (startShow n w s).tables = s.tables := by
  unfold startShow
  repeat' first
    | with_reducible rfl
    | simp only [tables_mk, tables_sections, tables_pu, tables_ix, tables_tt, tables_tu, tables_vu, tables_ss,
      tables_fc, tables_unwait, tables_changeShow, tables_beginLeg, tables_takeDriver, Table.keys_update,
      Table.keys_mapVals, Table.wf_mapVals, Table.wf_put_iff]
    | with_reducible refine (tables_onShowTrain _ _ (fun n s => ?_) _).trans ?_
    | split

theorem tables_visitShow (n : Nat) (s : State) : (visitShow n s).tables = s.tables := by
  unfold visitShow
  repeat' first
    | with_reducible rfl
    | simp only [tables_mk, tables_sections, tables_pu, tables_ix, tables_tt, tables_tu, tables_vu, tables_ss,
      tables_fc, tables_startShow, Table.keys_update, Table.keys_mapVals, Table.wf_mapVals, Table.wf_put_iff]
    | split

theorem tables_judgeStart (s : State) : (judgeStart s).tables = s.tables := by
  unfold judgeStart
  repeat' first
    | with_reducible rfl
    | simp only [tables_mk, tables_sections, tables_pu, tables_ix, tables_tt, tables_tu, tables_vu, tables_ss,
      tables_fc, tables_visitShow, Table.keys_update, Table.keys_mapVals, Table.wf_mapVals, Table.wf_put_iff]
    | with_reducible refine (tables_foldState _ (fun a s => ?_) _ _).trans ?_
    | split

theorem tables_pressShow (n : Nat) (s : State) : (pressShow n s).tables = s.tables := by
  unfold pressShow
  repeat' first
    | with_reducible rfl
    | simp only [tables_mk, tables_sections, tables_pu, tables_ix, tables_tt, tables_tu, tables_vu, tables_ss,
      tables_fc, tables_hand, tables_changeShow, Table.keys_update, Table.keys_mapVals, Table.wf_mapVals,
      Table.wf_put_iff]
    | split

theorem tables_returnDriver (n t : Nat) (s : State) : (returnDriver n t s).tables = s.tables := by
  unfold returnDriver
  repeat' first
    | with_reducible rfl
    | simp only [tables_mk, tables_sections, tables_pu, tables_ix, tables_tt, tables_tu, tables_vu, tables_ss,
      tables_fc, tables_hand, tables_changeHolds, Table.keys_update, Table.keys_mapVals, Table.wf_mapVals,
      Table.wf_put_iff]
    | split

theorem tables_completeShow (n : Nat) (w : ShowRec) (s : State) : (completeShow n w s).tables = s.tables := by
  unfold completeShow
  repeat' first
    | with_reducible rfl
    | simp only [tables_mk, tables_sections, tables_pu, tables_ix, tables_tt, tables_tu, tables_vu, tables_ss,
      tables_fc, tables_hand, tables_changeShow, tables_returnDriver, Table.keys_update, Table.keys_mapVals,
      Table.wf_mapVals, Table.wf_put_iff]
    | with_reducible refine (tables_onShowTrain _ _ (fun n s => ?_) _).trans ?_
    | split

theorem tables_abortShow (n : Nat) (cause : AbortCause) (s : State) : (abortShow n cause s).tables = s.tables := by
  unfold abortShow
  repeat' first
    | with_reducible rfl
    | simp only [tables_mk, tables_sections, tables_pu, tables_ix, tables_tt, tables_tu, tables_vu, tables_ss,
      tables_fc, tables_report, tables_hand, tables_setShow, tables_withdrawRequests, tables_returnDriver,
      Table.keys_update, Table.keys_mapVals, Table.wf_mapVals, Table.wf_put_iff]
    | with_reducible refine (tables_onShowTrain _ _ (fun n s => ?_) _).trans ?_
    | split

theorem tables_endLeg (n : Nat) (w : ShowRec) (s : State) : (endLeg n w s).tables = s.tables := by
  unfold endLeg
  repeat' first
    | with_reducible rfl
    | simp only [tables_mk, tables_sections, tables_pu, tables_ix, tables_tt, tables_tu, tables_vu, tables_ss,
      tables_fc, tables_beginLeg, tables_completeShow, Table.keys_update, Table.keys_mapVals, Table.wf_mapVals,
      Table.wf_put_iff]
    | split

theorem tables_endTurn (n : Nat) (w : ShowRec) (s : State) : (endTurn n w s).tables = s.tables := by
  unfold endTurn
  simp only [tables_endLeg, tables_setShow]
  apply tables_onShowTrain
  intro t s
  repeat' first | with_reducible rfl | simp only [tables_completeReversal, tables_changeHolds] | split

theorem tables_dwellOver (n : Nat) (s : State) : (dwellOver n s).tables = s.tables := by
  unfold dwellOver
  dsimp only
  repeat' first
    | with_reducible rfl
    | (simp only [tables_setShow, tables_endLeg, tables_abortShow]; done)
    | (simp only [tables_endTurn]; rw [tables_requestMove ‹_›, tables_setShow])
    | (rw [tables_requestMove ‹_›, tables_setShow])
    | split

theorem tables_judgeArrival (t n : Nat) (s : State) : (judgeArrival t n s).tables = s.tables := by
  unfold judgeArrival
  repeat' first
    | with_reducible rfl
    | simp only [tables_mk, tables_sections, tables_pu, tables_ix, tables_tt, tables_tu, tables_vu, tables_ss,
      tables_fc, tables_setShow, tables_setDemand, tables_enterDwell, Table.keys_update, Table.keys_mapVals,
      Table.wf_mapVals, Table.wf_put_iff]
    | split

theorem tables_judgeArrivals (t : Nat) (s : State) : (judgeArrivals t s).tables = s.tables := by
  unfold judgeArrivals
  repeat' first
    | with_reducible rfl
    | simp only [tables_mk, tables_sections, tables_pu, tables_ix, tables_tt, tables_tu, tables_vu, tables_ss,
      tables_fc, tables_judgeArrival, Table.keys_update, Table.keys_mapVals, Table.wf_mapVals, Table.wf_put_iff]
    | with_reducible refine (tables_foldState _ (fun a s => ?_) _ _).trans ?_
    | split

theorem tables_showRoute (r : Nat) (st : RouteState) (n : Nat) (s : State) :
    (showRoute r st n s).tables = s.tables := by
  unfold showRoute
  repeat' first
    | with_reducible rfl
    | simp only [tables_mk, tables_sections, tables_pu, tables_ix, tables_tt, tables_tu, tables_vu, tables_ss,
      tables_fc, tables_setShow, tables_enterRun, tables_storeLeg, tables_enterRouteWait, Table.keys_update,
      Table.keys_mapVals, Table.wf_mapVals, Table.wf_put_iff]
    | split

theorem tables_vuRouteChange (r : Nat) (st : RouteState) (s : State) : (vuRouteChange r st s).tables = s.tables := by
  unfold vuRouteChange
  repeat' first
    | with_reducible rfl
    | simp only [tables_mk, tables_sections, tables_pu, tables_ix, tables_tt, tables_tu, tables_vu, tables_ss,
      tables_fc, tables_showRoute, Table.keys_update, Table.keys_mapVals, Table.wf_mapVals, Table.wf_put_iff]
    | with_reducible refine (tables_foldState _ (fun a s => ?_) _ _).trans ?_
    | split

theorem tables_vuRouteFail (r : Nat) (s : State) : (vuRouteFail r s).tables = s.tables := by
  unfold vuRouteFail
  repeat' first
    | with_reducible rfl
    | simp only [tables_mk, tables_sections, tables_pu, tables_ix, tables_tt, tables_tu, tables_vu, tables_ss,
      tables_fc, tables_abortShow, Table.keys_update, Table.keys_mapVals, Table.wf_mapVals, Table.wf_put_iff]
    | with_reducible refine (tables_foldState _ (fun a s => ?_) _ _).trans ?_
    | split

theorem tables_vuRequestDropped (n r : Nat) (cause : RequestDrop) (s : State) :
    (vuRequestDropped n r cause s).tables = s.tables := by
  unfold vuRequestDropped
  repeat' first
    | with_reducible rfl
    | simp only [tables_mk, tables_sections, tables_pu, tables_ix, tables_tt, tables_tu, tables_vu, tables_ss,
      tables_fc, tables_abortShow, Table.keys_update, Table.keys_mapVals, Table.wf_mapVals, Table.wf_put_iff]
    | split

theorem tables_vuMoveEnded (n : Nat) (out : MoveOutcome) (s : State) : (vuMoveEnded n out s).tables = s.tables := by
  unfold vuMoveEnded
  repeat' first
    | with_reducible rfl
    | simp only [tables_mk, tables_sections, tables_pu, tables_ix, tables_tt, tables_tu, tables_vu, tables_ss,
      tables_fc, tables_abortShow, tables_endTurn, Table.keys_update, Table.keys_mapVals, Table.wf_mapVals,
      Table.wf_put_iff]
    | split

theorem tables_vuTrainChange (t : Nat) (e : TrainEvent) (s : State) : (vuTrainChange t e s).tables = s.tables := by
  unfold vuTrainChange
  repeat' first
    | with_reducible rfl
    | simp only [tables_mk, tables_sections, tables_pu, tables_ix, tables_tt, tables_tu, tables_vu, tables_ss,
      tables_fc, tables_hand, tables_judgeAvailable, tables_abortShow, Table.keys_update, Table.keys_mapVals,
      Table.wf_mapVals, Table.wf_put_iff]
    | with_reducible refine (tables_foldState _ (fun a s => ?_) _ _).trans ?_
    | split

theorem tables_vuPassedStop (t : Nat) (s : State) : (vuPassedStop t s).tables = s.tables := by
  unfold vuPassedStop
  repeat' first
    | with_reducible rfl
    | simp only [tables_mk, tables_sections, tables_pu, tables_ix, tables_tt, tables_tu, tables_vu, tables_ss,
      tables_fc, tables_abortShow, Table.keys_update, Table.keys_mapVals, Table.wf_mapVals, Table.wf_put_iff]
    | split

theorem tables_vuStepChange (t : Nat) (s : State) : (vuStepChange t s).tables = s.tables := by
  unfold vuStepChange
  repeat' first
    | with_reducible rfl
    | simp only [tables_mk, tables_sections, tables_pu, tables_ix, tables_tt, tables_tu, tables_vu, tables_ss,
      tables_fc, tables_hand, tables_setTrain, tables_judgeArrivals, Table.keys_update, Table.keys_mapVals,
      Table.wf_mapVals, Table.wf_put_iff]
    | split

theorem tables_showsStop (s : State) : (showsStop s).tables = s.tables := by
  unfold showsStop
  repeat' first
    | with_reducible rfl
    | simp only [tables_mk, tables_sections, tables_pu, tables_ix, tables_tt, tables_tu, tables_vu, tables_ss,
      tables_fc, tables_abortShow, Table.keys_update, Table.keys_mapVals, Table.wf_mapVals, Table.wf_put_iff]
    | with_reducible refine (tables_foldState _ (fun a s => ?_) _ _).trans ?_
    | split

theorem tables_legExpiry (n : Nat) (s : State) : (legExpiry n s).tables = s.tables := by
  unfold legExpiry
  repeat' first
    | with_reducible rfl
    | simp only [tables_mk, tables_sections, tables_pu, tables_ix, tables_tt, tables_tu, tables_vu, tables_ss,
      tables_fc, tables_expire, tables_abortShow, Table.keys_update, Table.keys_mapVals, Table.wf_mapVals,
      Table.wf_put_iff]
    | split

theorem tables_showDwellExpiry (n : Nat) (s : State) : (showDwellExpiry n s).tables = s.tables := by
  unfold showDwellExpiry
  repeat' first
    | with_reducible rfl
    | simp only [tables_mk, tables_sections, tables_pu, tables_ix, tables_tt, tables_tu, tables_vu, tables_ss,
      tables_fc, tables_expire, tables_dwellOver, Table.keys_update, Table.keys_mapVals, Table.wf_mapVals,
      Table.wf_put_iff]
    | split

theorem tables_coolExpiry (n : Nat) (s : State) : (coolExpiry n s).tables = s.tables := by
  unfold coolExpiry
  repeat' first
    | with_reducible rfl
    | simp only [tables_mk, tables_sections, tables_pu, tables_ix, tables_tt, tables_tu, tables_vu, tables_ss,
      tables_fc, tables_expire, tables_changeShow, Table.keys_update, Table.keys_mapVals, Table.wf_mapVals,
      Table.wf_put_iff]
    | split

theorem tables_cmdShowEnable (n : Nat) (s : State) : (cmdShowEnable n s).1.tables = s.tables := by
  unfold cmdShowEnable
  repeat' first
    | with_reducible rfl
    | simp only [tables_mk, tables_sections, tables_pu, tables_ix, tables_tt, tables_tu, tables_vu, tables_ss,
      tables_fc, tables_setShow, tables_judgeAvailable, Table.keys_update, Table.keys_mapVals, Table.wf_mapVals,
      Table.wf_put_iff]
    | split

theorem tables_cmdShowDisable (n : Nat) (s : State) : (cmdShowDisable n s).1.tables = s.tables := by
  unfold cmdShowDisable
  repeat' first
    | with_reducible rfl
    | simp only [tables_mk, tables_sections, tables_pu, tables_ix, tables_tt, tables_tu, tables_vu, tables_ss,
      tables_fc, tables_setShow, tables_judgeAvailable, tables_abortShow, Table.keys_update, Table.keys_mapVals,
      Table.wf_mapVals, Table.wf_put_iff]
    | split

theorem tables_cmdShowAbort (n : Nat) (s : State) : (cmdShowAbort n s).1.tables = s.tables := by
  unfold cmdShowAbort
  repeat' first
    | with_reducible rfl
    | simp only [tables_mk, tables_sections, tables_pu, tables_ix, tables_tt, tables_tu, tables_vu, tables_ss,
      tables_fc, tables_unwait, tables_changeShow, tables_abortShow, Table.keys_update, Table.keys_mapVals,
      Table.wf_mapVals, Table.wf_put_iff]
    | split

theorem tables_cmdTrainTake (n : Nat) (s : State) : (cmdTrainTake n s).1.tables = s.tables := by
  unfold cmdTrainTake
  repeat' first
    | with_reducible rfl
    | simp only [tables_mk, tables_sections, tables_pu, tables_ix, tables_tt, tables_tu, tables_vu, tables_ss,
      tables_fc, tables_abortShow, Table.keys_update, Table.keys_mapVals, Table.wf_mapVals, Table.wf_put_iff]
    | split

theorem tables_setBoard (s : State) (b : Nat) (f : Board → Board) : (State.setBoard s b f).tables = s.tables := by
  unfold State.setBoard
  repeat' first
    | with_reducible rfl
    | simp only [tables_mk, tables_sections, tables_pu, tables_ix, tables_tt, tables_tu, tables_vu, tables_ss,
      tables_fc, Table.keys_update, Table.keys_mapVals, Table.wf_mapVals, Table.wf_put_iff]
    | split

theorem tables_setLine (s : State) (b l : Nat) (f : BoardLine → BoardLine) :
    (State.setLine s b l f).tables = s.tables := by
  unfold State.setLine
  repeat' first
    | with_reducible rfl
    | simp only [tables_mk, tables_sections, tables_pu, tables_ix, tables_tt, tables_tu, tables_vu, tables_ss,
      tables_fc, tables_setBoard, Table.keys_update, Table.keys_mapVals, Table.wf_mapVals, Table.wf_put_iff]
    | split

theorem tables_queueLine (b l : Nat) (s : State) : (queueLine b l s).tables = s.tables := by
  unfold queueLine
  repeat' first
    | with_reducible rfl
    | simp only [tables_mk, tables_sections, tables_pu, tables_ix, tables_tt, tables_tu, tables_vu, tables_ss,
      tables_fc, Table.keys_update, Table.keys_mapVals, Table.wf_mapVals, Table.wf_put_iff]
    | split

theorem tables_unqueueLine (s : State) (b l : Nat) : (State.unqueueLine s b l).tables = s.tables := by
  unfold State.unqueueLine
  repeat' first
    | with_reducible rfl
    | simp only [tables_mk, tables_sections, tables_pu, tables_ix, tables_tt, tables_tu, tables_vu, tables_ss,
      tables_fc, Table.keys_update, Table.keys_mapVals, Table.wf_mapVals, Table.wf_put_iff]
    | split

theorem tables_sendFrame (f : Frame) (s : State) : (sendFrame f s).tables = s.tables := by
  unfold sendFrame
  repeat' first
    | with_reducible rfl
    | simp only [tables_mk, tables_sections, tables_pu, tables_ix, tables_tt, tables_tu, tables_vu, tables_ss,
      tables_fc, Table.keys_update, Table.keys_mapVals, Table.wf_mapVals, Table.wf_put_iff]
    | split

theorem tables_idleLink (s : State) : (idleLink s).tables = s.tables := by
  unfold idleLink
  repeat' first
    | with_reducible rfl
    | simp only [tables_mk, tables_sections, tables_pu, tables_ix, tables_tt, tables_tu, tables_vu, tables_ss,
      tables_fc, Table.keys_update, Table.keys_mapVals, Table.wf_mapVals, Table.wf_put_iff]
    | split

theorem tables_sendOldest (l : List (Nat × Nat)) (s : State) : (sendOldest l s).tables = s.tables := by
  induction l generalizing s with
  | nil => rfl
  | cons e rest ih =>
    obtain ⟨b, l⟩ := e
    unfold sendOldest
    repeat' first | with_reducible rfl | simp only [tables_unqueueLine, tables_sendFrame, ih] | split

theorem tables_chooseTransfer (s : State) : (chooseTransfer s).tables = s.tables := by
  unfold chooseTransfer
  repeat' first
    | with_reducible rfl
    | simp only [tables_mk, tables_sections, tables_pu, tables_ix, tables_tt, tables_tu, tables_vu, tables_ss,
      tables_fc, tables_setBoard, tables_sendFrame, tables_sendOldest, Table.keys_update, Table.keys_mapVals,
      Table.wf_mapVals, Table.wf_put_iff]
    | split

theorem tables_judgeLine (b l : Nat) (s : State) : (judgeLine b l s).tables = s.tables := by
  unfold judgeLine
  repeat' first
    | with_reducible rfl
    | simp only [tables_mk, tables_sections, tables_pu, tables_ix, tables_tt, tables_tu, tables_vu, tables_ss,
      tables_fc, tables_queueLine, tables_chooseTransfer, Table.keys_update, Table.keys_mapVals, Table.wf_mapVals,
      Table.wf_put_iff]
    | split

theorem tables_readSteps (s : State) : (readSteps s).tables = s.tables := by
  unfold readSteps
  repeat' first
    | with_reducible rfl
    | simp only [tables_mk, tables_sections, tables_pu, tables_ix, tables_tt, tables_tu, tables_vu, tables_ss,
      tables_fc, Table.keys_update, Table.keys_mapVals, Table.wf_mapVals, Table.wf_put_iff]
    | split

theorem tables_judgeLines (s : State) : (judgeLines s).tables = s.tables := by
  unfold judgeLines
  repeat' first
    | with_reducible rfl
    | simp only [tables_mk, tables_sections, tables_pu, tables_ix, tables_tt, tables_tu, tables_vu, tables_ss,
      tables_fc, tables_reach, tables_judgeLine, tables_readSteps, Table.keys_update, Table.keys_mapVals,
      Table.wf_mapVals, Table.wf_put_iff]
    | with_reducible refine (tables_foldState _ (fun a s => ?_) _ _).trans ?_
    | split

theorem tables_boardOffline (b : Nat) (s : State) : (boardOffline b s).tables = s.tables := by
  unfold boardOffline
  repeat' first
    | with_reducible rfl
    | simp only [tables_mk, tables_sections, tables_pu, tables_ix, tables_tt, tables_tu, tables_vu, tables_ss,
      tables_fc, tables_report, tables_setBoard, Table.keys_update, Table.keys_mapVals, Table.wf_mapVals,
      Table.wf_put_iff]
    | split

theorem tables_boardOnline (b : Nat) (s : State) : (boardOnline b s).tables = s.tables := by
  unfold boardOnline
  repeat' first
    | with_reducible rfl
    | simp only [tables_mk, tables_sections, tables_pu, tables_ix, tables_tt, tables_tu, tables_vu, tables_ss,
      tables_fc, tables_report, tables_setBoard, tables_queueLine, Table.keys_update, Table.keys_mapVals,
      Table.wf_mapVals, Table.wf_put_iff]
    | with_reducible refine (tables_foldState _ (fun a s => ?_) _ _).trans ?_
    | split

theorem tables_frameOutcome (f : Frame) (a : Answer) (s : State) : (frameOutcome f a s).tables = s.tables := by
  unfold frameOutcome
  repeat' first
    | with_reducible rfl
    | simp only [tables_mk, tables_sections, tables_pu, tables_ix, tables_tt, tables_tu, tables_vu, tables_ss,
      tables_fc, tables_setBoard, tables_setLine, tables_queueLine, tables_unqueueLine, tables_sendFrame,
      tables_idleLink, tables_boardOffline, tables_boardOnline, Table.keys_update, Table.keys_mapVals,
      Table.wf_mapVals, Table.wf_put_iff]
    | split

theorem tables_frameSent (s : State) : (frameSent s).tables = s.tables := by
  unfold frameSent
  repeat' first
    | with_reducible rfl
    | simp only [tables_mk, tables_sections, tables_pu, tables_ix, tables_tt, tables_tu, tables_vu, tables_ss,
      tables_fc, Table.keys_update, Table.keys_mapVals, Table.wf_mapVals, Table.wf_put_iff]
    | split

theorem tables_replyFrame (bytes : List Byte) (s : State) : (replyFrame bytes s).tables = s.tables := by
  unfold replyFrame
  repeat' first
    | with_reducible rfl
    | simp only [tables_mk, tables_sections, tables_pu, tables_ix, tables_tt, tables_tu, tables_vu, tables_ss,
      tables_fc, tables_frameOutcome, Table.keys_update, Table.keys_mapVals, Table.wf_mapVals, Table.wf_put_iff]
    | split

theorem tables_replyTimeout (s : State) : (replyTimeout s).tables = s.tables := by
  unfold replyTimeout
  repeat' first
    | with_reducible rfl
    | simp only [tables_mk, tables_sections, tables_pu, tables_ix, tables_tt, tables_tu, tables_vu, tables_ss,
      tables_fc, tables_reach, tables_frameOutcome, Table.keys_update, Table.keys_mapVals, Table.wf_mapVals,
      Table.wf_put_iff]
    | split

theorem tables_probeExpiry (b : Nat) (s : State) : (probeExpiry b s).tables = s.tables := by
  unfold probeExpiry
  repeat' first
    | with_reducible rfl
    | simp only [tables_mk, tables_sections, tables_pu, tables_ix, tables_tt, tables_tu, tables_vu, tables_ss,
      tables_fc, tables_expire, tables_setBoard, Table.keys_update, Table.keys_mapVals, Table.wf_mapVals,
      Table.wf_put_iff]
    | split

theorem tables_setSource (b l : Nat) (src : LineSource) (s : State) : (setSource b l src s).tables = s.tables := by
  unfold setSource
  repeat' first
    | with_reducible rfl
    | simp only [tables_mk, tables_sections, tables_pu, tables_ix, tables_tt, tables_tu, tables_vu, tables_ss,
      tables_fc, tables_setLine, tables_judgeLine, tables_readSteps, Table.keys_update, Table.keys_mapVals,
      Table.wf_mapVals, Table.wf_put_iff]
    | split

theorem tables_cmdBoardText (b l : Nat) (t : Text) (s : State) : (cmdBoardText b l t s).1.tables = s.tables := by
  unfold cmdBoardText
  repeat' first
    | with_reducible rfl
    | simp only [tables_mk, tables_sections, tables_pu, tables_ix, tables_tt, tables_tu, tables_vu, tables_ss,
      tables_fc, tables_setSource, Table.keys_update, Table.keys_mapVals, Table.wf_mapVals, Table.wf_put_iff]
    | split

theorem tables_cmdBoardSource (b l : Nat) (w : SourceWord) (s : State) :
    (cmdBoardSource b l w s).1.tables = s.tables := by
  unfold cmdBoardSource
  repeat' first
    | with_reducible rfl
    | simp only [tables_mk, tables_sections, tables_pu, tables_ix, tables_tt, tables_tu, tables_vu, tables_ss,
      tables_fc, tables_setSource, Table.keys_update, Table.keys_mapVals, Table.wf_mapVals, Table.wf_put_iff]
    | split

theorem tables_mapChannels (f : Nat → Channel → Channel) (s : State) : (mapChannels f s).tables = s.tables := by
  unfold mapChannels
  repeat' first
    | with_reducible rfl
    | simp only [tables_mk, tables_sections, tables_pu, tables_ix, tables_tt, tables_tu, tables_vu, tables_ss,
      tables_fc, Table.keys_update, Table.keys_mapVals, Table.wf_mapVals, Table.wf_put_iff]
    | split

theorem tables_reviseOutputs (before s : State) : (reviseOutputs before s).tables = s.tables := by
  unfold reviseOutputs
  repeat' first
    | with_reducible rfl
    | simp only [tables_mk, tables_sections, tables_pu, tables_ix, tables_tt, tables_tu, tables_vu, tables_ss,
      tables_fc, tables_mapChannels, Table.keys_update, Table.keys_mapVals, Table.wf_mapVals, Table.wf_put_iff]
    | split

theorem tables_loadPeriod (s : State) : (loadPeriod s).tables = s.tables := by
  unfold loadPeriod
  repeat' first
    | with_reducible rfl
    | simp only [tables_mk, tables_sections, tables_pu, tables_ix, tables_tt, tables_tu, tables_vu, tables_ss,
      tables_fc, tables_mapChannels, Table.keys_update, Table.keys_mapVals, Table.wf_mapVals, Table.wf_put_iff]
    | split

theorem tables_counterZero (s : State) : (counterZero s).tables = s.tables := by
  unfold counterZero
  repeat' first
    | with_reducible rfl
    | simp only [tables_mk, tables_sections, tables_pu, tables_ix, tables_tt, tables_tu, tables_vu, tables_ss,
      tables_fc, tables_reach, tables_mapChannels, tables_loadPeriod, Table.keys_update, Table.keys_mapVals,
      Table.wf_mapVals, Table.wf_put_iff]
    | split

theorem tables_setReplacements (s : State) : (setReplacements s).tables = s.tables := by
  unfold setReplacements
  repeat' first
    | with_reducible rfl
    | simp only [tables_mk, tables_sections, tables_pu, tables_ix, tables_tt, tables_tu, tables_vu, tables_ss,
      tables_fc, Table.keys_update, Table.keys_mapVals, Table.wf_mapVals, Table.wf_put_iff]
    | split

theorem tables_rampTrains (s : State) : (rampTrains s).tables = s.tables :=
  tables_tt _ _ _ _ _ _ _ _ s _ (Table.keys_map _ _ fun e => by split <;> rfl)

theorem tables_judgeConflict (n : Nat) (s : State) : (judgeConflict n s).tables = s.tables := by
  unfold judgeConflict
  repeat' first
    | with_reducible rfl
    | simp only [tables_mk, tables_sections, tables_pu, tables_ix, tables_tt, tables_tu, tables_vu, tables_ss,
      tables_fc, tables_report, tables_changeHolds, Table.keys_update, Table.keys_mapVals, Table.wf_mapVals,
      Table.wf_put_iff]
    | split

theorem tables_runTick (s : State) : (runTick s).tables = s.tables := by
  unfold runTick
  repeat' first
    | with_reducible rfl
    | simp only [tables_mk, tables_sections, tables_pu, tables_ix, tables_tt, tables_tu, tables_vu, tables_ss,
      tables_fc, tables_handAll, tables_mapChannels, tables_setReplacements, tables_rampTrains,
      tables_judgeConflict, Table.keys_update, Table.keys_mapVals, Table.wf_mapVals, Table.wf_put_iff]
    | with_reducible refine (tables_foldState _ (fun a s => ?_) _ _).trans ?_
    | split

theorem tables_stopTrains (s : State) : (stopTrains s).tables = s.tables := by
  unfold stopTrains
  repeat' first
    | with_reducible rfl
    | simp only [tables_mk, tables_sections, tables_pu, tables_ix, tables_tt, tables_tu, tables_vu, tables_ss,
      tables_fc, Table.keys_update, Table.keys_mapVals, Table.wf_mapVals, Table.wf_put_iff]
    | split

theorem tables_stoppedTick (s : State) : (stoppedTick s).tables = s.tables := by
  unfold stoppedTick
  repeat' first
    | with_reducible rfl
    | simp only [tables_mk, tables_sections, tables_pu, tables_ix, tables_tt, tables_tu, tables_vu, tables_ss,
      tables_fc, tables_mapChannels, tables_stopTrains, Table.keys_update, Table.keys_mapVals, Table.wf_mapVals,
      Table.wf_put_iff]
    | split

theorem tables_configTick (s : State) : (configTick s).tables = s.tables := by
  unfold configTick
  repeat' first
    | with_reducible rfl
    | simp only [tables_mk, tables_sections, tables_pu, tables_ix, tables_tt, tables_tu, tables_vu, tables_ss,
      tables_fc, tables_mapChannels, Table.keys_update, Table.keys_mapVals, Table.wf_mapVals, Table.wf_put_iff]
    | split

theorem tables_governorTick (s : State) : (governorTick s).tables = s.tables := by
  unfold governorTick
  repeat' first
    | with_reducible rfl
    | simp only [tables_mk, tables_sections, tables_pu, tables_ix, tables_tt, tables_tu, tables_vu, tables_ss,
      tables_fc, tables_runTick, tables_stoppedTick, tables_configTick, Table.keys_update, Table.keys_mapVals,
      Table.wf_mapVals, Table.wf_put_iff]
    | split

theorem tables_driveStop (before s : State) : (driveStop before s).tables = s.tables := by
  unfold driveStop
  repeat' first
    | with_reducible rfl
    | simp only [tables_mk, tables_sections, tables_pu, tables_ix, tables_tt, tables_tu, tables_vu, tables_ss,
      tables_fc, tables_handAll, tables_reviseOutputs, tables_stopTrains, Table.keys_update, Table.keys_mapVals,
      Table.wf_mapVals, Table.wf_put_iff]
    | split

theorem tables_cmdTimebase (p : Nat) (s : State) : (cmdTimebase p s).1.tables = s.tables := by
  unfold cmdTimebase
  repeat' first
    | with_reducible rfl
    | simp only [tables_mk, tables_sections, tables_pu, tables_ix, tables_tt, tables_tu, tables_vu, tables_ss,
      tables_fc, Table.keys_update, Table.keys_mapVals, Table.wf_mapVals, Table.wf_put_iff]
    | split

theorem tables_setForce (c : Nat) (f : Force) (s : State) : (setForce c f s).tables = s.tables := by
  unfold setForce
  repeat' first
    | with_reducible rfl
    | simp only [tables_mk, tables_sections, tables_pu, tables_ix, tables_tt, tables_tu, tables_vu, tables_ss,
      tables_fc, tables_mapChannels, Table.keys_update, Table.keys_mapVals, Table.wf_mapVals, Table.wf_put_iff]
    | split

theorem tables_cmdChanForce (c : Nat) (f : Option Force) (s : State) : (cmdChanForce c f s).1.tables = s.tables := by
  unfold cmdChanForce
  repeat' first
    | with_reducible rfl
    | simp only [tables_mk, tables_sections, tables_pu, tables_ix, tables_tt, tables_tu, tables_vu, tables_ss,
      tables_fc, tables_reviseOutputs, tables_setForce, Table.keys_update, Table.keys_mapVals, Table.wf_mapVals,
      Table.wf_put_iff]
    | split

theorem tables_conditionChanged (s : State) : (conditionChanged s).tables = s.tables := by
  unfold conditionChanged
  repeat' first
    | with_reducible rfl
    | simp only [tables_mk, tables_sections, tables_pu, tables_ix, tables_tt, tables_tu, tables_vu, tables_ss,
      tables_fc, tables_considerPulse, tables_reexamine, tables_freezeTracking, Table.keys_update,
      Table.keys_mapVals, Table.wf_mapVals, Table.wf_put_iff]
    | split

theorem tables_trackerStop (s : State) : (trackerStop s).tables = s.tables := by
  unfold trackerStop
  repeat' first
    | with_reducible rfl
    | simp only [tables_mk, tables_sections, tables_pu, tables_ix, tables_tt, tables_tu, tables_vu, tables_ss,
      tables_fc, Table.keys_update, Table.keys_mapVals, Table.wf_mapVals, Table.wf_put_iff]
    | split

theorem tables_handle (n : Notice) (s : State) : (handle n s).tables = s.tables := by
  unfold handle
  repeat' first
    | with_reducible rfl
    | simp only [tables_mk, tables_sections, tables_pu, tables_ix, tables_tt, tables_tu, tables_vu, tables_ss,
      tables_fc, tables_hand, tables_pointsStop, tables_refreshSignals, tables_turntableStop, tables_reexamine,
      tables_judgeDwell, tables_ixClear, tables_ixPoint, tables_ixBridge, tables_ixMoveEnded, tables_routesStop,
      tables_placement, tables_ttRequestStarted, tables_ttRequestDropped, tables_ttRouteChange,
      tables_trackOccupied, tables_trackClear, tables_ttStepChange, tables_resumption, tables_judgeStart,
      tables_dwellOver, tables_judgeArrivals, tables_vuRouteChange, tables_vuRouteFail, tables_vuRequestDropped,
      tables_vuMoveEnded, tables_vuTrainChange, tables_vuPassedStop, tables_vuStepChange, tables_showsStop,
      tables_conditionChanged, tables_trackerStop, Table.keys_update, Table.keys_mapVals, Table.wf_mapVals,
      Table.wf_put_iff]
    | with_reducible refine (tables_foldState _ (fun a s => ?_) _ _).trans ?_
    | split

theorem tables_settleStep (s : State) : (settleStep s).tables = s.tables := by
  unfold settleStep
  repeat' first
    | with_reducible rfl
    | simp only [tables_mk, tables_sections, tables_pu, tables_ix, tables_tt, tables_tu, tables_vu, tables_ss,
      tables_fc, tables_handle, Table.keys_update, Table.keys_mapVals, Table.wf_mapVals, Table.wf_put_iff]
    | split

theorem tables_settleFrom (k : Nat) (s : State) : (settleFrom k s).tables = s.tables := by
  induction k generalizing s with
  | zero => rfl
  | succ k ih => unfold settleFrom; repeat' first | with_reducible rfl | simp only [tables_settleStep, ih] | split

theorem tables_settle (s : State) : (settle s).tables = s.tables := by
  unfold settle
  repeat' first
    | with_reducible rfl
    | simp only [tables_mk, tables_sections, tables_pu, tables_ix, tables_tt, tables_tu, tables_vu, tables_ss,
      tables_fc, tables_settleFrom, Table.keys_update, Table.keys_mapVals, Table.wf_mapVals, Table.wf_put_iff]
    | split

theorem tables_arrival (f : State → State) (h : ∀ s, (f s).tables = s.tables) (s : State) :
    (arrival f s).tables = s.tables := by
  simp only [arrival, tables_settleSignals, tables_settle, h]

theorem tables_arrivalReply (f : State → State × Reply) (h : ∀ s, (f s).1.tables = s.tables) (s : State) :
    (arrivalReply f s).1.tables = s.tables := by
  simp only [arrivalReply, tables_settleSignals, tables_settle, h]

theorem tables_activateStop (cause : StopCause) (s : State) : (activateStop cause s).tables = s.tables := by
  unfold activateStop
  repeat' first
    | with_reducible rfl
    | simp only [tables_mk, tables_sections, tables_pu, tables_ix, tables_tt, tables_tu, tables_vu, tables_ss,
      tables_fc, tables_report, tables_handAll, tables_driveStop, Table.keys_update, Table.keys_mapVals,
      Table.wf_mapVals, Table.wf_put_iff]
    | split

theorem tables_setChain (s : State) (f : Chain → Chain) (h : Table.keys (f s.fc).modules = Table.keys s.fc.modules)
    (h' : Table.keys (f s.fc).terminals = Table.keys s.fc.terminals)
    (h'' : Table.wf (f s.fc).live = Table.wf s.fc.live) : (s.setChain f).tables = s.tables :=
  tables_fc _ _ _ _ _ _ _ _ s _ h h' h''

theorem tables_setLive (s : State) (k : Nat) (f : TerminalLive → TerminalLive) :
    (State.setLive s k f).tables = s.tables := by
  unfold State.setLive
  repeat' first
    | with_reducible rfl
    | simp only [tables_mk, tables_sections, tables_pu, tables_ix, tables_tt, tables_tu, tables_vu, tables_ss,
      tables_fc, tables_setChain, Table.keys_update, Table.keys_mapVals, Table.wf_mapVals, Table.wf_put_iff]
    | split

theorem tables_setModule (s : State) (m : Nat) (f : ModuleRec → ModuleRec) :
    (State.setModule s m f).tables = s.tables := by
  unfold State.setModule
  repeat' first
    | with_reducible rfl
    | simp only [tables_mk, tables_sections, tables_pu, tables_ix, tables_tt, tables_tu, tables_vu, tables_ss,
      tables_fc, tables_setChain, Table.keys_update, Table.keys_mapVals, Table.wf_mapVals, Table.wf_put_iff]
    | split

theorem tables_startCapture (s : State) : (startCapture s).tables = s.tables := by
  unfold startCapture
  repeat' first
    | with_reducible rfl
    | simp only [tables_mk, tables_sections, tables_pu, tables_ix, tables_tt, tables_tu, tables_vu, tables_ss,
      tables_fc, tables_setChain, Table.keys_update, Table.keys_mapVals, Table.wf_mapVals, Table.wf_put_iff]
    | split

theorem tables_scanExpiry (s : State) : (scanExpiry s).tables = s.tables := by
  unfold scanExpiry
  repeat' first
    | with_reducible rfl
    | simp only [tables_mk, tables_sections, tables_pu, tables_ix, tables_tt, tables_tu, tables_vu, tables_ss,
      tables_fc, tables_reach, tables_setChain, tables_startCapture, Table.keys_update, Table.keys_mapVals,
      Table.wf_mapVals, Table.wf_put_iff]
    | split

theorem tables_captureDone (s : State) : (captureDone s).tables = s.tables := by
  unfold captureDone
  repeat' first
    | with_reducible rfl
    | simp only [tables_mk, tables_sections, tables_pu, tables_ix, tables_tt, tables_tu, tables_vu, tables_ss,
      tables_fc, tables_setChain, Table.keys_update, Table.keys_mapVals, Table.wf_mapVals, Table.wf_put_iff]
    | split

theorem tables_changeScanMode (s : State) : (changeScanMode s).tables = s.tables := by
  unfold changeScanMode
  repeat' first
    | with_reducible rfl
    | simp only [tables_mk, tables_sections, tables_pu, tables_ix, tables_tt, tables_tu, tables_vu, tables_ss,
      tables_fc, tables_report, tables_setChain, Table.keys_update, Table.keys_mapVals, Table.wf_mapVals,
      Table.wf_put_iff]
    | split

theorem tables_updateComplete (s : State) : (updateComplete s).tables = s.tables := by
  unfold updateComplete
  repeat' first
    | with_reducible rfl
    | simp only [tables_mk, tables_sections, tables_pu, tables_ix, tables_tt, tables_tu, tables_vu, tables_ss,
      tables_fc, tables_pointsUpdate, tables_setChain, tables_startCapture, tables_changeScanMode,
      Table.keys_update, Table.keys_mapVals, Table.wf_mapVals, Table.wf_put_iff]
    | with_reducible refine (tables_arrival _ (fun s => ?_) _).trans ?_
    | split

theorem tables_flashToggle (s : State) : (flashToggle s).tables = s.tables := by
  unfold flashToggle
  repeat' first
    | with_reducible rfl
    | simp only [tables_mk, tables_sections, tables_pu, tables_ix, tables_tt, tables_tu, tables_vu, tables_ss,
      tables_fc, tables_reach, tables_setChain, Table.keys_update, Table.keys_mapVals, Table.wf_mapVals,
      Table.wf_put_iff]
    | split

theorem tables_takeAux (a : Nat) (v : Bool) (s : State) : (takeAux a v s).tables = s.tables := by
  unfold takeAux; split
  · rfl
  · rw [tables_report]; rfl

theorem tables_ownerTakes (t : TermId) (r : Role) (was v : Option Bool) (s : State) :
    (ownerTakes t r was v s).tables = s.tables := by
  unfold ownerTakes
  repeat' first
    | with_reducible rfl
    | simp only [tables_mk, tables_sections, tables_pu, tables_ix, tables_tt, tables_tu, tables_vu, tables_ss,
      tables_fc, tables_refreshSection, tables_refreshPoint, tables_pressShow, tables_activateStop, tables_takeAux,
      Table.keys_update, Table.keys_mapVals, Table.wf_mapVals, Table.wf_put_iff]
    | split

theorem tables_handValue (k : Nat) (v : Option Bool) (s : State) : (handValue k v s).tables = s.tables := by
  unfold handValue
  repeat' first
    | with_reducible rfl
    | simp only [tables_mk, tables_sections, tables_pu, tables_ix, tables_tt, tables_tu, tables_vu, tables_ss,
      tables_fc, tables_setLive, tables_ownerTakes, Table.keys_update, Table.keys_mapVals, Table.wf_mapVals,
      Table.wf_put_iff]
    | with_reducible refine (tables_arrival _ (fun s => ?_) _).trans ?_
    | split

theorem tables_unqualify (k : Nat) (s : State) : (unqualify k s).tables = s.tables := by
  unfold unqualify
  repeat' first
    | with_reducible rfl
    | simp only [tables_mk, tables_sections, tables_pu, tables_ix, tables_tt, tables_tu, tables_vu, tables_ss,
      tables_fc, tables_setLive, tables_handValue, Table.keys_update, Table.keys_mapVals, Table.wf_mapVals,
      Table.wf_put_iff]
    | split

theorem tables_changeCondition (c : Condition) (reps : List Report) (s : State) :
    (changeCondition c reps s).tables = s.tables := by
  unfold changeCondition
  repeat' first
    | with_reducible rfl
    | simp only [tables_mk, tables_sections, tables_pu, tables_ix, tables_tt, tables_tu, tables_vu, tables_ss,
      tables_fc, tables_report, tables_hand, tables_setChain, Table.keys_update, Table.keys_mapVals,
      Table.wf_mapVals, Table.wf_put_iff]
    | with_reducible refine (tables_foldState _ (fun a s => ?_) _ _).trans ?_
    | with_reducible refine (tables_arrival _ (fun s => ?_) _).trans ?_
    | split

theorem tables_chainReset (s : State) : (chainReset s).tables = s.tables := by
  unfold chainReset
  repeat' first
    | with_reducible rfl
    | simp only [tables_mk, tables_sections, tables_pu, tables_ix, tables_tt, tables_tu, tables_vu, tables_ss,
      tables_fc, tables_coilsCleared, tables_setChain, tables_handValue, tables_changeCondition, Table.keys_update,
      Table.keys_mapVals, Table.wf_mapVals, Table.wf_put_iff]
    | with_reducible refine (tables_foldState _ (fun a s => ?_) _ _).trans ?_
    | with_reducible refine (tables_arrival _ (fun s => ?_) _).trans ?_
    | split

theorem tables_enterHalted (f : ChainFault) (s : State) : (enterHalted f s).tables = s.tables := by
  unfold enterHalted
  repeat' first
    | with_reducible rfl
    | simp only [tables_mk, tables_sections, tables_pu, tables_ix, tables_tt, tables_tu, tables_vu, tables_ss,
      tables_fc, tables_coilsCleared, tables_setChain, tables_handValue, tables_changeCondition, Table.keys_update,
      Table.keys_mapVals, Table.wf_mapVals, Table.wf_put_iff]
    | with_reducible refine (tables_foldState _ (fun a s => ?_) _ _).trans ?_
    | with_reducible refine (tables_arrival _ (fun s => ?_) _).trans ?_
    | split

theorem tables_retryExpiry (s : State) : (retryExpiry s).tables = s.tables := by
  unfold retryExpiry
  repeat' first
    | with_reducible rfl
    | simp only [tables_mk, tables_sections, tables_pu, tables_ix, tables_tt, tables_tu, tables_vu, tables_ss,
      tables_fc, tables_expire, tables_chainReset, Table.keys_update, Table.keys_mapVals, Table.wf_mapVals,
      Table.wf_put_iff]
    | split

theorem tables_cmdChainReset (s : State) : (cmdChainReset s).1.tables = s.tables := by
  unfold cmdChainReset
  repeat' first
    | with_reducible rfl
    | simp only [tables_mk, tables_sections, tables_pu, tables_ix, tables_tt, tables_tu, tables_vu, tables_ss,
      tables_fc, tables_chainReset, Table.keys_update, Table.keys_mapVals, Table.wf_mapVals, Table.wf_put_iff]
    | split

theorem tables_cmdChainMode (m : ScanMode) (s : State) : (cmdChainMode m s).1.tables = s.tables := by
  unfold cmdChainMode
  repeat' first
    | with_reducible rfl
    | simp only [tables_mk, tables_sections, tables_pu, tables_ix, tables_tt, tables_tu, tables_vu, tables_ss,
      tables_fc, tables_setChain, Table.keys_update, Table.keys_mapVals, Table.wf_mapVals, Table.wf_put_iff]
    | split

theorem tables_resetEnd (s : State) : (resetEnd s).tables = s.tables := by
  unfold resetEnd
  repeat' first
    | with_reducible rfl
    | simp only [tables_mk, tables_sections, tables_pu, tables_ix, tables_tt, tables_tu, tables_vu, tables_ss,
      tables_fc, tables_expire, tables_setChain, Table.keys_update, Table.keys_mapVals, Table.wf_mapVals,
      Table.wf_put_iff]
    | split

theorem tables_enumerationMatched (s : State) : (enumerationMatched s).tables = s.tables := by
  unfold enumerationMatched
  repeat' first
    | with_reducible rfl
    | simp only [tables_mk, tables_sections, tables_pu, tables_ix, tables_tt, tables_tu, tables_vu, tables_ss,
      tables_fc, tables_setChain, tables_changeCondition, Table.keys_update, Table.keys_mapVals, Table.wf_mapVals,
      Table.wf_put_iff]
    | split

theorem tables_enumerationWord (cells : List Bool) (s : State) : (enumerationWord cells s).tables = s.tables := by
  unfold enumerationWord
  repeat' first
    | with_reducible rfl
    | simp only [tables_mk, tables_sections, tables_pu, tables_ix, tables_tt, tables_tu, tables_vu, tables_ss,
      tables_fc, tables_setChain, tables_enterHalted, tables_enumerationMatched, Table.keys_update,
      Table.keys_mapVals, Table.wf_mapVals, Table.wf_put_iff]
    | split

theorem tables_moduleFaulty (m : Nat) (s : State) : (moduleFaulty m s).tables = s.tables := by
  unfold moduleFaulty
  refine (tables_setChain _ _ rfl rfl (Table.wf_eq_of_keys _ _ (Table.keys_map _ _ fun e => by split <;> rfl))).trans ?_
  refine (tables_foldState _ tables_unqualify _ _).trans ?_
  rw [tables_report, tables_setModule]

theorem tables_echoModule (l : Nat) (cells : List Bool) (m : Nat) (s : State) :
    (echoModule l cells m s).tables = s.tables := by
  unfold echoModule
  repeat' first
    | with_reducible rfl
    | simp only [tables_mk, tables_sections, tables_pu, tables_ix, tables_tt, tables_tu, tables_vu, tables_ss,
      tables_fc, tables_report, tables_setModule, tables_moduleFaulty, Table.keys_update, Table.keys_mapVals,
      Table.wf_mapVals, Table.wf_put_iff]
    | split

theorem tables_qualifyTerminal (n : Nat) (cells : List Bool) (k : Nat) (s : State) :
    (qualifyTerminal n cells k s).tables = s.tables := by
  unfold qualifyTerminal
  repeat' first
    | with_reducible rfl
    | simp only [tables_mk, tables_sections, tables_pu, tables_ix, tables_tt, tables_tu, tables_vu, tables_ss,
      tables_fc, tables_setLive, tables_handValue, Table.keys_update, Table.keys_mapVals, Table.wf_mapVals,
      Table.wf_put_iff]
    | split

theorem tables_handQualified (k : Nat) (s : State) : (handQualified k s).tables = s.tables := by
  unfold handQualified
  repeat' first
    | with_reducible rfl
    | simp only [tables_mk, tables_sections, tables_pu, tables_ix, tables_tt, tables_tu, tables_vu, tables_ss,
      tables_fc, tables_setLive, tables_handValue, Table.keys_update, Table.keys_mapVals, Table.wf_mapVals,
      Table.wf_put_iff]
    | split

theorem tables_settlingComplete (s : State) : (settlingComplete s).tables = s.tables := by
  unfold settlingComplete
  repeat' first
    | with_reducible rfl
    | simp only [tables_mk, tables_sections, tables_pu, tables_ix, tables_tt, tables_tu, tables_vu, tables_ss,
      tables_fc, tables_hand, tables_changeCondition, tables_handQualified, Table.keys_update, Table.keys_mapVals,
      Table.wf_mapVals, Table.wf_put_iff]
    | with_reducible refine (tables_foldState _ (fun a s => ?_) _ _).trans ?_
    | with_reducible refine (tables_arrival _ (fun s => ?_) _).trans ?_
    | split

theorem tables_shiftEnd (cells : List Bool) (s : State) : (shiftEnd cells s).tables = s.tables := by
  have h1 : ∀ (f : Nat → State → State) (_ : ∀ a s, (f a s).tables = s.tables) (l : List Nat) (s t : State),
      s.tables = t.tables → (foldState f l s).tables = t.tables := by
    intro f hf l s t h; rw [tables_foldState f hf, h]
  unfold shiftEnd
  dsimp only
  split
  · split
    · refine (tables_setChain _ _ rfl rfl rfl).trans ?_
      have key := h1 _ (tables_qualifyTerminal s.chainLength cells)
        ((((List.range s.chainLength).filter (s.expire s.fc.seqDue).moduleHealthy).filter
          ((List.range s.chainLength).filter
            (foldState (echoModule s.chainLength cells) (List.range s.chainLength) (s.expire s.fc.seqDue)).moduleHealthy).contains).flatMap
          moduleTerminals) _ _ (h1 _ (tables_echoModule s.chainLength cells) (List.range s.chainLength) _ _
            (tables_expire s s.fc.seqDue))
      split
      · rw [tables_settlingComplete]; exact key
      · exact key
    · rw [tables_enterHalted, tables_expire]
  · rfl

theorem tables_enterRunMode (s : State) : (enterRunMode s).tables = s.tables := by
  unfold enterRunMode
  repeat' first
    | with_reducible rfl
    | simp only [tables_mk, tables_sections, tables_pu, tables_ix, tables_tt, tables_tu, tables_vu, tables_ss,
      tables_fc, tables_report, tables_judgeAvailable, tables_mapChannels, tables_reviseOutputs, tables_setChain,
      Table.keys_update, Table.keys_mapVals, Table.wf_mapVals, Table.wf_put_iff]
    | with_reducible refine (tables_foldState _ (fun a s => ?_) _ _).trans ?_
    | split

theorem tables_cmdModeRun (s : State) : (cmdModeRun s).1.tables = s.tables := by
  unfold cmdModeRun
  repeat' first
    | with_reducible rfl
    | simp only [tables_mk, tables_sections, tables_pu, tables_ix, tables_tt, tables_tu, tables_vu, tables_ss,
      tables_fc, tables_enterRunMode, Table.keys_update, Table.keys_mapVals, Table.wf_mapVals, Table.wf_put_iff]
    | split

theorem tables_endShow (n : Nat) (s : State) : (endShow n s).tables = s.tables := by
  unfold endShow
  repeat' first
    | with_reducible rfl
    | simp only [tables_mk, tables_sections, tables_pu, tables_ix, tables_tt, tables_tu, tables_vu, tables_ss,
      tables_fc, tables_report, tables_setShow, tables_withdrawRequests, Table.keys_update, Table.keys_mapVals,
      Table.wf_mapVals, Table.wf_put_iff]
    | split

theorem tables_leaveRun (s : State) : (leaveRun s).tables = s.tables := by
  unfold leaveRun
  repeat' first
    | with_reducible rfl
    | simp only [tables_mk, tables_sections, tables_pu, tables_ix, tables_tt, tables_tu, tables_vu, tables_ss,
      tables_fc, tables_dropAllRequests, tables_unplace, tables_mapChannels, tables_reviseOutputs, tables_endShow,
      Table.keys_update, Table.keys_mapVals, Table.wf_mapVals, Table.wf_put_iff]
    | with_reducible refine (tables_foldState _ (fun a s => ?_) _ _).trans ?_
    | split

theorem tables_enterConfig (s : State) : (enterConfig s).tables = s.tables := by
  unfold enterConfig
  repeat' first
    | with_reducible rfl
    | simp only [tables_mk, tables_sections, tables_pu, tables_ix, tables_tt, tables_tu, tables_vu, tables_ss,
      tables_fc, tables_report, tables_chainReset, tables_leaveRun, Table.keys_update, Table.keys_mapVals,
      Table.wf_mapVals, Table.wf_put_iff]
    | with_reducible refine (tables_arrival _ (fun s => ?_) _).trans ?_
    | split

theorem tables_cmdModeConfig (s : State) : (cmdModeConfig s).1.tables = s.tables := by
  unfold cmdModeConfig
  repeat' first
    | with_reducible rfl
    | simp only [tables_mk, tables_sections, tables_pu, tables_ix, tables_tt, tables_tu, tables_vu, tables_ss,
      tables_fc, tables_enterConfig, Table.keys_update, Table.keys_mapVals, Table.wf_mapVals, Table.wf_put_iff]
    | split

theorem tables_cmdEstop (s : State) : (cmdEstop s).1.tables = s.tables := by
  unfold cmdEstop
  repeat' first
    | with_reducible rfl
    | simp only [tables_mk, tables_sections, tables_pu, tables_ix, tables_tt, tables_tu, tables_vu, tables_ss,
      tables_fc, tables_activateStop, Table.keys_update, Table.keys_mapVals, Table.wf_mapVals, Table.wf_put_iff]
    | split

theorem tables_endStop (s : State) : (endStop s).tables = s.tables := by
  unfold endStop
  repeat' first
    | with_reducible rfl
    | simp only [tables_mk, tables_sections, tables_pu, tables_ix, tables_tt, tables_tu, tables_vu, tables_ss,
      tables_fc, tables_report, tables_handAll, tables_reviseOutputs, Table.keys_update, Table.keys_mapVals,
      Table.wf_mapVals, Table.wf_put_iff]
    | split

theorem tables_cmdResume (s : State) : (cmdResume s).1.tables = s.tables := by
  unfold cmdResume
  repeat' first
    | with_reducible rfl
    | simp only [tables_mk, tables_sections, tables_pu, tables_ix, tables_tt, tables_tu, tables_vu, tables_ss,
      tables_fc, tables_endStop, Table.keys_update, Table.keys_mapVals, Table.wf_mapVals, Table.wf_put_iff]
    | split

theorem tables_loopChange (v : LoopValue) (s : State) : (loopChange v s).tables = s.tables := by
  unfold loopChange
  repeat' first
    | with_reducible rfl
    | simp only [tables_mk, tables_sections, tables_pu, tables_ix, tables_tt, tables_tu, tables_vu, tables_ss,
      tables_fc, tables_activateStop, Table.keys_update, Table.keys_mapVals, Table.wf_mapVals, Table.wf_put_iff]
    | split

theorem tables_autorun (s : State) : (autorun s).tables = s.tables := by
  unfold autorun
  repeat' first
    | with_reducible rfl
    | simp only [tables_mk, tables_sections, tables_pu, tables_ix, tables_tt, tables_tu, tables_vu, tables_ss,
      tables_fc, tables_report, tables_enterRunMode, Table.keys_update, Table.keys_mapVals, Table.wf_mapVals,
      Table.wf_put_iff]
    | with_reducible refine (tables_arrival _ (fun s => ?_) _).trans ?_
    | split

theorem tables_cmdReset (s : State) : (cmdReset s).1.tables = s.tables := by
  unfold cmdReset
  repeat' first
    | with_reducible rfl
    | simp only [tables_mk, tables_sections, tables_pu, tables_ix, tables_tt, tables_tu, tables_vu, tables_ss,
      tables_fc, Table.keys_update, Table.keys_mapVals, Table.wf_mapVals, Table.wf_put_iff]
    | split

theorem tables_reownTerminal (k : Nat) (old : TerminalCfg) (s : State) :
    (reownTerminal k old s).tables = s.tables := by
  unfold reownTerminal
  repeat' first
    | with_reducible rfl
    | simp only [tables_mk, tables_sections, tables_pu, tables_ix, tables_tt, tables_tu, tables_vu, tables_ss,
      tables_fc, tables_refreshSection, tables_refreshPoint, tables_setLive, tables_ownerTakes, Table.keys_update,
      Table.keys_mapVals, Table.wf_mapVals, Table.wf_put_iff]
    | split

theorem tables_unhome (s : State) : (unhome s).tables = s.tables := by
  unfold unhome
  repeat' first
    | with_reducible rfl
    | simp only [tables_mk, tables_sections, tables_pu, tables_ix, tables_tt, tables_tu, tables_vu, tables_ss,
      tables_fc, tables_report, tables_hand, tables_setTurn, Table.keys_update, Table.keys_mapVals,
      Table.wf_mapVals, Table.wf_put_iff]
    | split

theorem tables_putBridge (c : BridgeCfg) (s : State) : (putBridge c s).tables = s.tables := by
  unfold putBridge
  repeat' first
    | with_reducible rfl
    | simp only [tables_mk, tables_sections, tables_pu, tables_ix, tables_tt, tables_tu, tables_vu, tables_ss,
      tables_fc, tables_setTurn, tables_unhome, Table.keys_update, Table.keys_mapVals, Table.wf_mapVals,
      Table.wf_put_iff]
    | split

theorem tables_dropBridge (s : State) : (dropBridge s).tables = s.tables := by
  unfold dropBridge
  repeat' first
    | with_reducible rfl
    | simp only [tables_mk, tables_sections, tables_pu, tables_ix, tables_tt, tables_tu, tables_vu, tables_ss,
      tables_fc, tables_setTurn, tables_unhome, Table.keys_update, Table.keys_mapVals, Table.wf_mapVals,
      Table.wf_put_iff]
    | split

theorem tables_setSupply (s : State) (f : PointUnit → PointUnit)
    (h : Table.keys (f s.pu).points = Table.keys s.pu.points) : (s.setSupply f).tables = s.tables :=
  tables_pu _ _ _ _ _ _ _ _ s _ h

theorem tables_setCaps (s : State) (f : Interlocking → Interlocking)
    (h : Table.keys (f s.ix).routes = Table.keys s.ix.routes)
    (h' : Table.keys (f s.ix).signals = Table.keys s.ix.signals) : (s.setCaps f).tables = s.tables :=
  tables_ix _ _ _ _ _ _ _ _ s _ h h'

theorem tables_setupKey {key v : Text} {f : State → State} (h : setupKey key v = .ok f) (s : State) :
    (f s).tables = s.tables := by
  have w : ∀ {β : Type} (v : Except Code β) (set : β → State → State), (∀ b s, (set b s).tables = s.tables) →
      writeField v set = .ok f → (f s).tables = s.tables := by
    intro β v set hset he
    unfold writeField at he
    split at he
    · cases he; exact hset _ _
    · cases he
  have c : ∀ {b : Bool} {x y : FieldChange State}, (x = .ok f → (f s).tables = s.tables) →
      (y = .ok f → (f s).tables = s.tables) → (if b then x else y) = .ok f → (f s).tables = s.tables := by
    intro b x y hx hy h; cases b
    · exact hy h
    · exact hx h
  revert h; unfold setupKey
  iterate 10 refine c (w _ _ fun _ _ => rfl) ?_
  intro h; cases h

theorem tables_readSetup {pairs : List (Text × Text)} {f : State → State}
    (h : readFields setupKey pairs = .ok f) (s : State) : (f s).tables = s.tables := by
  induction pairs generalizing f s with
  | nil => cases h; rfl
  | cons p rest ih =>
    unfold readFields at h
    split at h
    · cases h
    · split at h
      · cases h
      · cases h; rw [ih ‹_›, tables_setupKey ‹_›]

theorem tables_cmdSetup (pairs : List (Text × Text)) (s : State) : (cmdSetup pairs s).1.tables = s.tables := by
  unfold cmdSetup; repeat' first | with_reducible rfl | exact tables_readSetup ‹_› s | split

theorem tables_cmdTell (ws : List TellWord) (s : State) : (cmdTell ws s).1.tables = s.tables := by
  unfold cmdTell
  split
  · rfl
  · cases tellClasses ws s.hl.classes <;> rfl

theorem tables_cmdAux (a v : Nat) (s : State) : (cmdAux a v s).1.tables = s.tables := by
  unfold cmdAux; split <;> rfl

theorem tables_cmdBaud (n : Nat) (s : State) : (cmdBaud n s).1.tables = s.tables := by
  unfold cmdBaud
  repeat' first
    | with_reducible rfl
    | simp only [tables_mk, tables_sections, tables_pu, tables_ix, tables_tt, tables_tu, tables_vu, tables_ss,
      tables_fc, Table.keys_update, Table.keys_mapVals, Table.wf_mapVals, Table.wf_put_iff]
    | split


end Sys2Proof.Machine
end

