-- ==== Sys2Proof/Laws/HostLink.lean ====
section
/-! SUPPORT. What the host link's operations do: the bounds they keep, a part at rest, and a host line that is
taken at once. -/

namespace Sys2Proof.Machine

open Sys2Proof

/-! ## The bounds of the link (R152, R155) -/

theorem inBounds_iff (h : HostLink) : h.inBounds = true ↔
    h.buffer.length ≤ 4 ∧ h.owed ≤ 255 ∧ h.lost ≤ 65535 ∧ h.reports.length ≤ 64 := by
  simp only [HostLink.inBounds, Bool.and_eq_true, decide_eq_true_eq, and_assoc]; rfl

theorem join_inBounds (h : HostLink) (e : BufferEntry) (w : h.inBounds = true) : (h.join e).inBounds = true := by
  rw [inBounds_iff] at w ⊢
  unfold HostLink.join
  split
  · rename_i c
    have c : h.buffer.length < 4 := c
    exact ⟨by simp only [List.length_append, List.length_singleton]; omega, w.2⟩
  · split
    · rename_i c
      have c : h.owed < 255 := c
      exact ⟨w.1, by simp only; omega, w.2.2⟩
    · exact ⟨w.1, w.2.1, Nat.min_le_right _ _, w.2.2.2⟩

theorem report_inBounds (h : HostLink) (r : Report) (w : h.inBounds = true) : (h.report r).inBounds = true := by
  rw [inBounds_iff] at w ⊢
  unfold HostLink.report
  split
  · split
    · rename_i c
      have c : h.reports.length < 64 := c
      exact ⟨w.1, w.2.1, w.2.2.1, by simp only [List.length_append, List.length_singleton]; omega⟩
    · exact w
  · exact w

theorem choose_inBounds (h : HostLink) (w : h.inBounds = true) : h.choose.inBounds = true := by
  unfold HostLink.choose
  split
  · simp only [HostLink.inBounds, Bool.and_eq_true, decide_eq_true_eq] at w ⊢
    simp only [Config.owedMax] at *
    exact ⟨⟨⟨w.1.1.1, by omega⟩, w.1.2⟩, w.2⟩
  · split
    · exact w
    · unfold HostLink.sendReport
      split
      · exact w
      · rename_i r rest e
        have w1 : HostLink.inBounds { h with tx := some (.report r), reports := rest, overflow := false } = true := by
          simp only [HostLink.inBounds, Bool.and_eq_true, decide_eq_true_eq, e, List.length_cons] at w ⊢
          exact ⟨w.1, by omega⟩
        dsimp only
        split
        · exact report_inBounds _ _ w1
        · exact w1

theorem endLine_inBounds (h : HostLink) (w : h.inBounds = true) : h.endLine.inBounds = true := by
  unfold HostLink.endLine
  repeat' split
  all_goals first | exact w | exact join_inBounds h.clearLine _ w

/-- A state whose link stands as another's has its bounds. -/
theorem inBounds_of_link {s t : State} (e : s.link = t.link) (w : t.hl.inBounds = true) :
    s.hl.inBounds = true := by
  simp only [State.link, HostLink.view, LinkView.mk.injEq, decide_eq_decide] at e
  simp only [HostLink.inBounds, Bool.and_eq_true, decide_eq_true_eq] at w ⊢
  rw [e.2.2.2.2.2.1, e.2.2.2.2.2.2.1, e.2.2.2.2.2.2.2.1]
  exact ⟨w.1, e.2.2.2.2.2.2.2.2.2.2.2.2 w.2⟩

/-! ## Commands (R153) -/

/-- No command but GET LINK changes what HL alone owns. -/
theorem link_runHost (i : Instr) (h : i ≠ .getLink) (s : State) : (runHost i s).1.link = s.link := by
  cases i with
  | refusalMark m => rfl
  | define k r fs => exact link_cmdDefine k r fs s
  | defDelete k r => exact link_cmdDefDelete k r s
  | modeRun => exact link_arrivalReply _ (link_cmdModeRun) s
  | modeConfig => exact link_cmdModeConfig s
  | setup ps => exact link_cmdSetup ps s
  | getSection x => rfl
  | getModule m => rfl
  | getTerminal m t => rfl
  | getChain => rfl
  | getPoint p => rfl
  | getSupply => rfl
  | getRoute r => rfl
  | getSignal g => rfl
  | getTrain n => rfl
  | getTimebase => rfl
  | getChannel c => rfl
  | getTurntable => rfl
  | getRoad k => rfl
  | getShow n => rfl
  | getBoard b => rfl
  | getLink => exact absurd rfl h
  | getAux a => rfl
  | routeSet r => exact link_arrivalReply _ (link_cmdRouteSet r) s
  | routeStore r => exact link_arrivalReply _ (link_cmdRouteStore r) s
  | routeCan r => exact link_arrivalReply _ (link_cmdRouteCan r) s
  | point p pos => exact link_arrivalReply _ (link_cmdPoint p pos) s
  | trainPlace n x e => exact link_arrivalReply _ (link_cmdTrainPlace n x e) s
  | trainSpeed n v => exact link_arrivalReply _ (link_cmdTrainSpeed n v) s
  | trainReverse n => exact link_arrivalReply _ (link_cmdTrainReverse n) s
  | trainRelease n => exact link_arrivalReply _ (link_cmdTrainRelease n) s
  | trainTake n => exact link_arrivalReply _ (link_cmdTrainTake n) s
  | trainRemove n => exact link_arrivalReply _ (link_cmdTrainRemove n) s
  | trainRunlist n m rs => exact link_arrivalReply _ (link_cmdTrainRunlist n m rs) s
  | timebase p => exact link_cmdTimebase p s
  | chanForce c f => exact link_cmdChanForce c f s
  | turn k e d => exact link_arrivalReply _ (link_cmdTurn k e d) s
  | turnHome => exact link_arrivalReply _ (link_cmdTurnHome) s
  | turnStop => exact link_arrivalReply _ (link_cmdTurnStop) s
  | showEnable n => exact link_arrivalReply _ (link_cmdShowEnable n) s
  | showDisable n => exact link_arrivalReply _ (link_cmdShowDisable n) s
  | showAbort n => exact link_arrivalReply _ (link_cmdShowAbort n) s
  | boardText b l t => exact link_cmdBoardText b l t s
  | boardSource b l w => exact link_cmdBoardSource b l w s
  | aux a v => exact link_cmdAux a v s
  | tell ws => exact link_cmdTell ws s
  | chainReset => exact link_cmdChainReset s
  | chainMode m => exact link_cmdChainMode m s
  | estop => exact link_arrivalReply _ (link_cmdEstop) s
  | resume => exact link_arrivalReply _ (link_cmdResume) s
  | save => exact link_cmdSave s
  | reset => rfl
  | baud n => exact link_cmdBaud n s
  | _ => rfl

/-- GET LINK clears the lost count and nothing else of the link (R156). -/
theorem link_getLink (s : State) : (runHost .getLink s).1.link = { s.link with lost := 0 } := rfl

theorem runHost_inBounds (i : Instr) (s : State) (w : s.hl.inBounds = true) : (runHost i s).1.hl.inBounds = true := by
  by_cases h : i = .getLink
  · subst h
    simp only [HostLink.inBounds, Bool.and_eq_true, decide_eq_true_eq] at w ⊢
    exact ⟨⟨w.1.1, Nat.zero_le _⟩, w.2⟩
  · exact inBounds_of_link (link_runHost i h s) w

/-- What every command leaves of the link: the buffer, the owed count, the slot, the transmitter, the queue of
commands and the power. -/
theorem runHost_keeps (i : Instr) (s : State) :
    (runHost i s).1.hl.buffer = s.hl.buffer ∧ (runHost i s).1.hl.owed = s.hl.owed ∧
      (runHost i s).1.hl.slot = s.hl.slot ∧ (runHost i s).1.hl.tx = s.hl.tx ∧
      (runHost i s).1.pending = s.pending ∧ (runHost i s).1.powered = s.powered ∧
      (runHost i s).1.hl.speed = s.hl.speed ∧ (runHost i s).1.hl.line = s.hl.line := by
  by_cases h : i = .getLink
  · subst h; exact ⟨rfl, rfl, rfl, rfl, rfl, rfl, rfl, rfl⟩
  · have e := link_runHost i h s
    simp only [State.link, HostLink.view, LinkView.mk.injEq] at e
    exact ⟨e.2.2.2.2.2.1, e.2.2.2.2.2.2.1, e.2.2.2.2.2.2.2.2.1, e.2.2.2.2.2.2.2.2.2.1, e.2.1, e.1,
      e.2.2.2.2.2.2.2.2.2.2.1, e.2.2.1⟩

/-! ## The arbiters -/

theorem runEntry_inBounds (e : BufferEntry) (s : State) (w : s.hl.inBounds = true) :
    (runEntry e s).1.hl.inBounds = true := by
  cases e with
  | mark m => exact w
  | command i => exact runHost_inBounds i s w
  | line t =>
    rw [runEntry]
    cases parseLine t with
    | ok i => exact runHost_inBounds i s w
    | error c => exact w

theorem runEntry_pending (e : BufferEntry) (s : State) : (runEntry e s).1.pending = s.pending := by
  cases e with
  | mark m => rfl
  | command i => exact (runHost_keeps _ s).2.2.2.2.1
  | line t =>
    rw [runEntry]
    cases parseLine t with
    | ok i => exact (runHost_keeps _ s).2.2.2.2.1
    | error c => rfl

theorem runEntry_powered (e : BufferEntry) (s : State) : (runEntry e s).1.powered = s.powered := by
  cases e with
  | mark m => rfl
  | command i => exact (runHost_keeps _ s).2.2.2.2.2.1
  | line t =>
    rw [runEntry]
    cases parseLine t with
    | ok i => exact (runHost_keeps _ s).2.2.2.2.2.1
    | error c => rfl

theorem takeEntry_inBounds (s : State) (w : s.hl.inBounds = true) : (takeEntry s).hl.inBounds = true := by
  unfold takeEntry
  split
  · exact w
  · rename_i e rest h
    have w1 : HostLink.inBounds { s.hl with buffer := rest } = true := by
      simp only [HostLink.inBounds, Bool.and_eq_true, decide_eq_true_eq, h, List.length_cons] at w ⊢
      exact ⟨⟨⟨by omega, w.1.1.2⟩, w.1.2⟩, w.2⟩
    exact runEntry_inBounds e (s.setLink fun h => { h with buffer := rest }) w1

theorem takeEntry_pending (s : State) : (takeEntry s).pending = s.pending := by
  unfold takeEntry
  split
  · rfl
  · exact runEntry_pending _ _

theorem takeEntry_powered (s : State) : (takeEntry s).powered = s.powered := by
  unfold takeEntry
  split
  · rfl
  · exact runEntry_powered _ _

/-- What an entry taken leaves of the buffer, the owed count, the slot and the transmitter. -/
theorem runEntry_keeps (e : BufferEntry) (s : State) :
    (runEntry e s).1.hl.buffer = s.hl.buffer ∧ (runEntry e s).1.hl.owed = s.hl.owed ∧
      (runEntry e s).1.hl.slot = s.hl.slot ∧ (runEntry e s).1.hl.tx = s.hl.tx := by
  unfold runEntry
  split
  · simp
  · have k := runHost_keeps ‹_› s
    exact ⟨k.1, k.2.1, k.2.2.1, k.2.2.2.1⟩
  · split
    · have k := runHost_keeps ‹_› s
      exact ⟨k.1, k.2.1, k.2.2.1, k.2.2.2.1⟩
    · simp

/-- An entry taken leaves the buffer, and its reply stands in the slot. -/
theorem takeEntry_keeps {s : State} {e : BufferEntry} {rest : List BufferEntry} (h : s.hl.buffer = e :: rest) :
    (takeEntry s).hl.buffer = rest ∧ (takeEntry s).hl.owed = s.hl.owed ∧ (takeEntry s).hl.slot ≠ none ∧
      (takeEntry s).hl.tx = s.hl.tx := by
  have k := runEntry_keeps e (s.setLink fun h => { h with buffer := rest })
  simp only [takeEntry, h, placeReply]
  simpa [State.setLink] using ⟨k.1, k.2.1, k.2.2.2⟩

theorem pumpStep_take {s : State} (h : s.hl.slot = none) (b : s.hl.buffer ≠ []) : pumpStep s = takeEntry s :=
  if_pos ⟨h, b⟩

theorem pumpStep_choose {s : State} (h : ¬ (s.hl.slot = none ∧ s.hl.buffer ≠ [])) (t : s.hl.tx = none) :
    pumpStep s = s.setLink HostLink.choose := by
  rw [pumpStep, if_neg h, if_pos t]

theorem pumpStep_rest {s : State} (h : ¬ (s.hl.slot = none ∧ s.hl.buffer ≠ [])) (t : s.hl.tx ≠ none) :
    pumpStep s = s := by
  rw [pumpStep, if_neg h, if_neg t]

theorem pumpStep_inBounds (s : State) (w : s.hl.inBounds = true) : (pumpStep s).hl.inBounds = true := by
  unfold pumpStep
  split
  · exact takeEntry_inBounds s w
  · split
    · exact choose_inBounds _ w
    · exact w

theorem pumpStep_pending (s : State) : (pumpStep s).pending = s.pending := by
  unfold pumpStep
  split
  · exact takeEntry_pending s
  · split <;> rfl

theorem pumpStep_powered (s : State) : (pumpStep s).powered = s.powered := by
  unfold pumpStep
  split
  · exact takeEntry_powered s
  · split <;> rfl

theorem arbitrate_inBounds (s : State) (w : s.hl.inBounds = true) : (arbitrate s).hl.inBounds = true :=
  inBounds_of_link (link_chooseTransfer _)
    (pumpStep_inBounds _ (pumpStep_inBounds _ (pumpStep_inBounds _ (pumpStep_inBounds _ w))))

/-- The arbiters leave the queue of commands and the power alone. -/
theorem arbitrate_keeps (s : State) : (arbitrate s).pending = s.pending ∧ (arbitrate s).powered = s.powered := by
  have e := link_chooseTransfer (pump s)
  simp only [State.link, HostLink.view, LinkView.mk.injEq] at e
  have p : (pump s).pending = s.pending ∧ (pump s).powered = s.powered := by
    simp only [pump, pumpStep_pending, pumpStep_powered, and_self]
  exact ⟨e.2.1.trans p.1, e.1.trans p.2⟩

/-! ## Rest -/

theorem AtRest.pump {s : State} (h : s.AtRest) : pump s = s := by
  simp only [Machine.pump, h.2.1]

/-- The arbiters of a part at rest do nothing. -/
theorem AtRest.arbitrate {s : State} (h : s.AtRest) : arbitrate s = s := by
  simp only [Machine.arbitrate, AtRest.pump h, h.2.2]

/-- At rest, an empty slot means an empty buffer (R153). -/
theorem AtRest.buffer {s : State} (h : s.AtRest) (e : s.hl.slot = none) : s.hl.buffer = [] := by
  have p := h.2.1
  unfold pumpStep at p
  split at p
  · rename_i c
    exfalso
    have : (takeEntry s).hl.slot ≠ none := by
      unfold takeEntry
      split
      · exact absurd ‹_› c.2
      · simp [placeReply, State.setLink]
    exact this ((congrArg (fun t => t.hl.slot) p).trans e)
  · rename_i c
    by_cases b : s.hl.buffer = []
    · exact b
    · exact absurd ⟨e, b⟩ c

/-- At rest, a free transmitter means that nothing waits to be sent (R155). -/
theorem AtRest.free {s : State} (h : s.AtRest) (e : s.hl.tx = none) :
    s.hl.owed = 0 ∧ s.hl.slot = none ∧ s.hl.reports = [] := by
  have p := h.2.1
  have c : ¬(s.hl.slot = none ∧ s.hl.buffer ≠ []) := fun c => c.2 (AtRest.buffer h c.1)
  rw [pumpStep, if_neg c, if_pos e] at p
  have p' : s.hl.choose = s.hl := congrArg State.hl p
  unfold HostLink.choose at p'
  split at p'
  · exact absurd (congrArg HostLink.tx p') (by simp [e])
  · split at p'
    · exact absurd (congrArg HostLink.tx p') (by simp [e])
    · refine ⟨by omega, ‹_›, ?_⟩
      unfold HostLink.sendReport at p'
      split at p'
      · assumption
      · exfalso
        have q := congrArg HostLink.tx p'
        rw [e] at q
        dsimp only at q
        split at q
        · have k : ∀ (g : HostLink) (r : Report), (g.report r).tx = g.tx := by
            intro g r; unfold HostLink.report; repeat' first | rfl | split
          rw [k] at q; cases q
        · cases q

/-- At rest, an event is its own action, after which the arbiters act. -/
theorem event_at_rest (f : State → State) {s : State} (h : s.AtRest) : event f s = .next (arbitrate (f s)) := by
  simp only [event, h.1, if_true, AtRest.arbitrate h]

/-- A host line that ends while the part is ready is taken, judged and answered within the event (R153). -/
theorem event_hostLine_ready (i : Instr) {s : State} (h : s.Ready) :
    event (hostLine i) s = .next (deliver (runHost i s)) := by
  have hb := AtRest.buffer h.1 h.2
  rw [event_at_rest _ h.1]
  have e1 : hostLine i s = s.setLink fun h => { h with buffer := [.command i] } := by
    simp only [hostLine, State.setLink, HostLink.join, hb, List.length_nil, Config.bufferMax]
    simp
  have e2 : pumpStep (hostLine i s) = placeReply (runHost i s) := by
    have hs : (s.setLink fun h => { h with buffer := [] }) = s := by
      simp only [State.setLink]; rw [← hb]
    have c : ((s.setLink fun h => { h with buffer := [.command i] }).hl.slot = none ∧
        (s.setLink fun h => { h with buffer := [.command i] }).hl.buffer ≠ []) := ⟨h.2, by simp [State.setLink]⟩
    rw [e1, pumpStep, if_pos c]
    show placeReply (runHost i ((s.setLink fun h => { h with buffer := [.command i] }).setLink
      fun h => { h with buffer := [] })) = _
    rw [show ((s.setLink fun h => { h with buffer := [.command i] }).setLink fun h => { h with buffer := [] })
      = s.setLink fun h => { h with buffer := [] } from rfl, hs]
  obtain ⟨kb, ko, ks, kt, -, -⟩ := runHost_keeps i s
  have nb : (placeReply (runHost i s)).hl.buffer = [] := kb.trans hb
  simp only [Machine.arbitrate, Machine.pump, e2, deliver]
  congr 2
  by_cases ht : s.hl.tx = none
  · have e3 : pumpStep (placeReply (runHost i s)) = (runHost i s).1.setLink fun h =>
        { h with tx := some (.reply (runHost i s).2) } := by
      have f := AtRest.free h.1 ht
      rw [pumpStep, if_neg (by rintro ⟨c, -⟩; cases c), if_pos (show (placeReply (runHost i s)).hl.tx = none from kt.trans ht)]
      have no : ¬ 0 < (placeReply (runHost i s)).hl.owed := by
        show ¬ 0 < (runHost i s).1.hl.owed
        rw [ko, f.1]; exact Nat.lt_irrefl 0
      simp only [State.setLink, HostLink.choose, if_neg no]
      simp only [placeReply, State.setLink]
      rw [← ks.trans h.2]
    rw [if_pos (kt.trans ht), e3]
    have fix : pumpStep ((runHost i s).1.setLink fun h => { h with tx := some (.reply (runHost i s).2) }) =
        (runHost i s).1.setLink fun h => { h with tx := some (.reply (runHost i s).2) } := by
      rw [pumpStep, if_neg (by rintro ⟨-, c⟩; exact c nb), if_neg (by rintro ⟨⟩)]
    simp only [fix]
  · have fix : pumpStep (placeReply (runHost i s)) = placeReply (runHost i s) := by
      rw [pumpStep, if_neg (by rintro ⟨c, -⟩; cases c), if_neg (show ¬ (placeReply (runHost i s)).hl.tx = none from fun c => ht (kt.symm.trans c))]
    rw [if_neg (fun c => ht (kt.symm.trans c))]
    simp only [fix]
    rfl

/-- A row that is a line of the host is the event of that line's end. -/
theorem exec_hostRow {i : Instr} (h : hostRow i = true) (s : State) : exec i s = event (hostLine i) s := by
  cases i <;> first | (cases h; done) | rfl

/-- A line of the host on a ready part: taken, judged and answered. -/
theorem exec_ready {i : Instr} (h : hostRow i = true) {s : State} (r : s.Ready) :
    exec i s = .next (deliver (runHost i s)) := (exec_hostRow h s).trans (event_hostLine_ready i r)

/-! ## What follows a block's own action -/

theorem settle_of_empty {s : State} (h : s.agenda = []) : settle s = s := by
  have k : ∀ n, settleFrom n s = s := by
    intro n; cases n with
    | zero => rfl
    | succ n => rw [settleFrom, if_pos h]
  exact k _

theorem workOut_of_settled {s : State} (h : s.Settled) : workOut s s = s := by
  rw [workOut, settle_of_empty h.1, h.2]

theorem link_workOut (s t : State) : (workOut s t).link = t.link := by
  simp only [workOut, link_settleSignals, link_settle]

theorem tables_workOut (s t : State) : (workOut s t).tables = t.tables := by
  simp only [workOut, tables_settleSignals, tables_settle]

theorem arrivalReply_eq (f : State → State × Reply) (s : State) :
    arrivalReply f s = (workOut s (f s).1, (f s).2) := rfl

theorem arrival_eq (f : State → State) (s : State) : arrival f s = workOut s (f s) := rfl

end Sys2Proof.Machine
end

