-- ==== Sys2Proof/Laws/Kept.lean ====
section
/-! SUPPORT. What the interlocking's actions leave of the trains: a release, a setting, an append or a change of a list
changes no train but in ON-TURN, which a bridge move gives, and in a mark STARTED whose route has become IDLE. One
lemma for each operation, cited by the next. -/

namespace Sys2Proof.Machine

open Sys2Proof

/-- An action from `s` to `u` keeps every train by `State.KeepsTrain`, and every notice that waited. -/
structure State.KeepsTrains (s u : State) : Prop where
  keys : Table.keys u.tt.trains = Table.keys s.tt.trains
  agenda : ∀ x ∈ s.agenda, x ∈ u.agenda
  trains : Table.wf s.tt.trains = true → ∀ m a, s.train? m = some a → ∃ b, u.train? m = some b ∧ u.KeepsTrain a b

/-- A longer agenda keeps what a shorter one kept. -/
theorem State.KeepsTrain.mono {u v : State} {a b : TrainRec} (h : u.KeepsTrain a b) (g : ∀ x ∈ u.agenda, x ∈ v.agenda) :
    v.KeepsTrain a b :=
  ⟨h.1.imp id fun ⟨p, q, r, e, f⟩ => ⟨p, q, r, e, g _ f⟩, h.2⟩

/-- A mark that STARTED has left does not come back to it. -/
theorem State.KeepsTrain.trans {u : State} {a b c : TrainRec} (h : u.KeepsTrain a b) (g : u.KeepsTrain b c) :
    u.KeepsTrain a c := by
  obtain ⟨hm, hr⟩ := h
  obtain ⟨gm, gr⟩ := g
  have cfg : b.cfg = a.cfg := by rw [← hr]
  refine ⟨?_, ?_⟩
  · rcases hm with hm | ⟨p, q, r, e, f⟩ <;> rcases gm with gm | ⟨p', q', r', e', f'⟩
    · exact .inl (gm.trans hm)
    · exact .inr ⟨hm ▸ p', q', r', cfg ▸ e', f'⟩
    · exact .inr ⟨p, gm.trans q, r, e, f⟩
    · rw [q] at p'; cases p'
  · have h1 : { c with onTurn := a.onTurn, mark := a.mark } =
        { ({ c with onTurn := b.onTurn, mark := b.mark } : TrainRec) with onTurn := a.onTurn, mark := a.mark } := rfl
    rw [h1, gr, hr]

namespace State.KeepsTrains

theorem of_tt {s u : State} (h : u.tt = s.tt) (g : ∀ x ∈ s.agenda, x ∈ u.agenda) : KeepsTrains s u :=
  ⟨by rw [h], g, fun _ m a f => ⟨a, by rw [← f]; simp only [State.train?, h], .inl rfl, rfl⟩⟩

theorem refl (s : State) : KeepsTrains s s := of_tt rfl fun _ h => h

theorem trans {s u v : State} (h : KeepsTrains s u) (g : KeepsTrains u v) : KeepsTrains s v := by
  refine ⟨g.keys.trans h.keys, fun x hx => g.agenda x (h.agenda x hx), fun w m a f => ?_⟩
  obtain ⟨b, fb, kb⟩ := h.trains w m a f
  obtain ⟨c, fc, kc⟩ := g.trains ((Table.wf_eq_of_keys _ _ h.keys).trans w) m b fb
  exact ⟨c, fc, (kb.mono g.agenda).trans kc⟩

theorem fold {α : Type} {f : α → State → State} (h : ∀ a s, KeepsTrains s (f a s)) (l : List α) (s : State) :
    KeepsTrains s (foldState f l s) := by
  induction l generalizing s with
  | nil => exact refl s
  | cons a l ih => exact (h a s).trans (ih _)

/-- A chain of actions, the last one first. -/
theorem after {s u v : State} (g : KeepsTrains u v) (h : KeepsTrains s u) : KeepsTrains s v := h.trans g

end State.KeepsTrains

open State.KeepsTrains

/-! ## Updates of other records, reports and notices -/

theorem keeps_report (s : State) (r : Report) : s.KeepsTrains (s.report r) := of_tt rfl fun _ h => h

theorem keeps_hand (s : State) (n : Notice) : s.KeepsTrains (s.hand n) := of_tt rfl fun _ h => List.mem_append_left _ h

theorem keeps_setPoint (s : State) (p : Nat) (f : PointRec → PointRec) : s.KeepsTrains (s.setPoint p f) :=
  of_tt rfl fun _ h => h

theorem keeps_setSection (s : State) (x : Nat) (f : SectionRec → SectionRec) : s.KeepsTrains (s.setSection x f) :=
  of_tt rfl fun _ h => h

theorem keeps_setRoute (s : State) (r : Nat) (f : RouteRec → RouteRec) : s.KeepsTrains (s.setRoute r f) :=
  of_tt rfl fun _ h => h

theorem keeps_setTurn (s : State) (f : Turntable → Turntable) : s.KeepsTrains (s.setTurn f) := of_tt rfl fun _ h => h

/-- A changed train is found changed, and every other as it was. -/
theorem train?_setTrain (s : State) (n m : Nat) (f : TrainRec → TrainRec) :
    (s.setTrain n f).train? m = if m = n then (s.train? m).map f else s.train? m :=
  Table.find_update s.tt.trains n m f

theorem keys_setTrain (s : State) (n : Nat) (f : TrainRec → TrainRec) :
    Table.keys (s.setTrain n f).tt.trains = Table.keys s.tt.trains := Table.keys_update s.tt.trains n f

/-- ON-TURN alone may change. -/
theorem keeps_onTurn (s : State) (n : Nat) (b : Bool) : s.KeepsTrains (s.setTrain n fun t => { t with onTurn := b }) := by
  refine ⟨keys_setTrain s n _, fun _ h => h, fun _ m a f => ?_⟩
  rw [train?_setTrain, f]
  split
  · exact ⟨_, rfl, .inl rfl, rfl⟩
  · exact ⟨_, rfl, .inl rfl, rfl⟩

/-! ## Points -/

theorem keeps_changePoint (p : Nat) (f : PointRec → PointRec) (rep : Report) (e : PointEvent) (s : State) :
    s.KeepsTrains (changePoint p f rep e s) :=
  of_tt rfl fun _ h => List.mem_append_left _ h

theorem keeps_dropPoint (p : Nat) (cause : DropCause) (s : State) : s.KeepsTrains (dropPoint p cause s) :=
  keeps_changePoint _ _ _ _ _

theorem keeps_startPulse (p : Nat) (pos : PointPos) (s : State) : s.KeepsTrains (startPulse p pos s) :=
  of_tt rfl fun _ h => h

theorem keeps_pulseFrom (k : Nat) (s : State) : s.KeepsTrains (pulseFrom k s) := by
  induction k generalizing s with
  | zero => exact refl s
  | succ k ih =>
    have taken (rest) : s.KeepsTrains { s with pu := { s.pu with queue := rest } } := of_tt rfl fun _ h => h
    rw [pulseFrom]
    split
    · exact refl s
    · simp only
      split
      · exact (ih _).after ((keeps_hand _ _).after ((keeps_dropPoint _ _ _).after (taken _)))
      · split
        · exact (ih _).after ((keeps_hand _ _).after ((keeps_dropPoint _ _ _).after (taken _)))
        · exact (keeps_hand _ _).after ((keeps_startPulse _ _ _).after (taken _))

theorem keeps_considerPulse (s : State) : s.KeepsTrains (considerPulse s) := by
  unfold considerPulse
  split
  · exact keeps_pulseFrom _ _
  · exact refl s

theorem keeps_commandPoint (p : Nat) (pos : PointPos) (ph : Phase) (s : State) :
    s.KeepsTrains (commandPoint p pos ph s) := by
  unfold commandPoint
  split
  · exact refl s
  · split
    · exact keeps_setPoint _ _ _
    · exact keeps_changePoint _ _ _ _ _

theorem keeps_joinQueue (p : Nat) (pos : PointPos) (ph : Phase) (s : State) : s.KeepsTrains (joinQueue p pos ph s) :=
  (keeps_considerPulse _).after ((keeps_commandPoint _ _ _ _).after (of_tt rfl fun _ h => h))

theorem keeps_replaceEntry (p : Nat) (pos : PointPos) (ph : Phase) (s : State) :
    s.KeepsTrains (replaceEntry p pos ph s) :=
  (keeps_commandPoint _ _ _ _).after (of_tt rfl fun _ h => h)

theorem keeps_throwPoint (p : Nat) (pos : PointPos) (s : State) : s.KeepsTrains (throwPoint p pos s) := by
  unfold throwPoint
  repeat' first
    | exact refl s
    | exact keeps_joinQueue _ _ _ _
    | exact keeps_replaceEntry _ _ _ _
    | split

/-! ## The bridge -/

theorem keeps_carry (n : Nat) (s : State) : s.KeepsTrains (carry n s) :=
  (keeps_hand _ _).after ((keeps_setTurn _ _).after (keeps_onTurn s n true))

theorem keeps_takeCarried (s : State) : s.KeepsTrains (takeCarried s) := by
  unfold takeCarried
  split
  · exact keeps_carry _ _
  · exact refl s

theorem keeps_beginMove (k : Nat) (e : BridgeEnd) (dir : Option MoveDir) (origin : Origin) (s : State) :
    s.KeepsTrains (beginMove k e dir origin s).1 := by
  unfold beginMove
  split
  · dsimp only
    split
    · exact refl s
    · exact (keeps_takeCarried _).after ((keeps_hand _ _).after ((keeps_report _ _).after (keeps_setTurn _ _)))
  · exact refl s

/-! ## Locks and changes of state -/

theorem keeps_leavePoint (r p : Nat) (s : State) : s.KeepsTrains (leavePoint r p s) := keeps_setPoint _ _ _

theorem keeps_leaveBridge (r : Nat) (s : State) : s.KeepsTrains (leaveBridge r s) := keeps_setTurn _ _

theorem keeps_releaseSection (r : Nat) (c : RouteCfg) (x : Nat) (s : State) :
    s.KeepsTrains (releaseSection r c x s) := by
  unfold releaseSection
  repeat' first
    | exact refl _
    | exact keeps_setSection _ _ _
    | exact (keeps_leaveBridge _ _).after (keeps_setSection _ _ _)
    | exact (keeps_leavePoint _ _ _).after (keeps_setSection _ _ _)
    | dsimp only
    | split

theorem keeps_leaveAll (r : Nat) (s : State) : s.KeepsTrains (leaveAll r s) :=
  (keeps_leaveBridge _ _).after (fold (fun _ _ => keeps_leavePoint _ _ _) _ _)

theorem keeps_changeRoute (r : Nat) (st : RouteState) (rep : Report) (f : RouteRec → RouteRec) (s : State) :
    s.KeepsTrains (changeRoute r st rep f s) :=
  of_tt rfl fun _ h => List.mem_append_left _ h

/-- The marks of several trains, written one after the other. -/
theorem train?_foldState_setMark (k : RequestMark) (ns : List Nat) (s : State) (m : Nat) :
    (foldState (fun n s => setMark n k s) ns s).train? m =
      (s.train? m).map fun t => if m ∈ ns then { t with mark := k } else t := by
  induction ns generalizing s with
  | nil => simp [foldState]
  | cons n ns ih =>
    rw [foldState, ih, setMark, train?_setTrain]
    cases s.train? m <;> by_cases h : m = n <;> by_cases g : m ∈ ns <;> simp [h, g]

/-- The trains with `p`, as the table finds them. -/
theorem mem_trainsWith {s : State} (h : Table.wf s.tt.trains = true) (p : TrainRec → Bool) (m : Nat) :
    m ∈ s.trainsWith p ↔ ∃ t, s.train? m = some t ∧ p t = true := by
  simp only [State.trainsWith, List.mem_map, List.mem_filter, State.train?]
  constructor
  · rintro ⟨⟨k, t⟩, ⟨hm, hp⟩, rfl⟩
    exact ⟨t, (Table.find_eq_some_iff _ h _ _).2 hm, hp⟩
  · rintro ⟨t, hf, hp⟩
    exact ⟨(m, t), ⟨(Table.find_eq_some_iff _ h _ _).1 hf, hp⟩, rfl⟩

/-- The marks that the start of route `r` made become NONE, every other mark stands (R105). -/
theorem train?_clearStarted {s : State} (h : Table.wf s.tt.trains = true) (r m : Nat) :
    (clearStarted r s).train? m =
      (s.train? m).map fun t => if t.cfg.runList.head? = some r ∧ t.mark = .started then { t with mark := .none } else t := by
  rw [clearStarted, train?_foldState_setMark]
  cases f : s.train? m with
  | none => rfl
  | some t =>
    simp only [Option.map_some, State.marked, mem_trainsWith h, f, Option.some.injEq, exists_eq_left', TrainRec.head,
      Bool.and_eq_true, beq_iff_eq]

theorem clearStarted_agenda (r : Nat) (s : State) : (clearStarted r s).agenda = s.agenda := by
  unfold clearStarted
  generalize s.marked r .started = ns
  induction ns generalizing s with
  | nil => rfl
  | cons n ns ih => rw [foldState, ih]; rfl

theorem clearStarted_keys (r : Nat) (s : State) : Table.keys (clearStarted r s).tt.trains = Table.keys s.tt.trains := by
  unfold clearStarted
  generalize s.marked r .started = ns
  induction ns generalizing s with
  | nil => rfl
  | cons n ns ih => rw [foldState, ih, setMark, keys_setTrain]

/-- A route that becomes IDLE hands the change on, and clears the marks its start made. -/
theorem keeps_idleRoute (r : Nat) (s : State) : s.KeepsTrains (idleRoute r s) := by
  have tt : (idleRoute r s).tt = (clearStarted r s).tt := rfl
  have ag : (idleRoute r s).agenda = s.agenda ++ [.routeChange r .idle] ++ [.reexamine] := by
    rw [← clearStarted_agenda r s]; rfl
  refine ⟨by rw [tt, clearStarted_keys], fun x h => by rw [ag]; simp [h], fun w m a f => ?_⟩
  have e : (idleRoute r s).train? m = (clearStarted r s).train? m := by simp only [State.train?, tt]
  rw [e, train?_clearStarted w, f]
  by_cases h : a.cfg.runList.head? = some r ∧ a.mark = .started
  · refine ⟨{ a with mark := .none }, by simp [h], .inr ⟨h.2, rfl, r, h.1, by rw [ag]; simp⟩, rfl⟩
  · exact ⟨a, by simp only [Option.map_some, if_neg h], .inl rfl, rfl⟩

/-! ## Setting and the request queue -/

theorem keeps_testProof (r : Nat) (s : State) : s.KeepsTrains (testProof r s) := by
  unfold testProof
  split
  · exact refl s
  · split
    · exact keeps_changeRoute _ _ _ _ _
    · exact refl s

theorem keeps_askMove (r k : Nat) (e : BridgeEnd) (s : State) : s.KeepsTrains (askMove r k e s) := by
  have moved {o} (h : requestMove k e none (.route r) s = .ok o) : s.KeepsTrains o.1 := by
    unfold requestMove at h
    split at h
    · cases h
    · cases h; exact keeps_beginMove _ _ _ _ _
  unfold askMove
  split
  · next h => exact (keeps_setRoute _ _ _).after (moved h)
  · next h => exact moved h
  · exact keeps_hand _ _

theorem keeps_enterSetting (r : Nat) (c : RouteCfg) (s : State) : s.KeepsTrains (enterSetting r c s) := by
  have joined := (fold (fun (q : Nat × PointPos) u => keeps_setPoint u q.1 fun p => { p with locks := setInsert r p.locks })
    c.requirements _).after ((fold (fun x u => keeps_setSection u x fun q => { q with lock := some r }) c.sections _).after
      (keeps_changeRoute r .setting (.routeState r .setting) id s))
  unfold enterSetting
  dsimp only
  refine (keeps_testProof _ _).after ((keeps_setRoute _ _ _).after ?_)
  have thrown {u : State} (h : s.KeepsTrains u) (l : List (Nat × PointPos)) :
      s.KeepsTrains (foldState (fun q s => throwPoint q.1 q.2 s) l u) :=
    (fold (fun _ _ => keeps_throwPoint _ _ _) _ _).after h
  split
  · refine (keeps_askMove _ _ _ _).after (thrown ?_ _)
    split
    · exact (keeps_setTurn _ _).after joined
    · exact joined
  · refine thrown ?_ _
    split
    · exact (keeps_setTurn _ _).after joined
    · exact joined

theorem keeps_startRequest (r : Nat) (s : State) : s.KeepsTrains (startRequest r s) := by
  unfold startRequest
  split
  · exact refl s
  · exact of_tt rfl fun _ h => List.mem_append_left _ h

theorem keeps_visitRequest (q : Request) (s : State) : s.KeepsTrains (visitRequest q s) := by
  unfold visitRequest
  split
  · exact refl s
  · split
    · exact (keeps_enterSetting _ _ _).after (keeps_startRequest _ _)
    · exact refl s

theorem keeps_reexamine (s : State) : s.KeepsTrains (reexamine s) := fold keeps_visitRequest _ _

/-! ## Occupation and release -/

theorem keeps_idleIfFree (r : Nat) (s : State) : s.KeepsTrains (idleIfFree r s) := by
  unfold idleIfFree
  split
  · exact refl s
  · split
    · exact keeps_idleRoute _ _
    · exact refl s

theorem keeps_freeSection (r : Nat) (c : RouteCfg) (x : Nat) (s : State) : s.KeepsTrains (freeSection r c x s) := by
  unfold freeSection
  split
  · exact (keeps_reexamine _).after (keeps_releaseSection _ _ _ _)
  · exact refl s

theorem keeps_giveUp (r : Nat) (c : RouteCfg) (s : State) : s.KeepsTrains (giveUp r c s) := by
  unfold giveUp
  refine (fold (keeps_freeSection r c) _ _).after ?_
  split
  · exact (keeps_reexamine _).after ((keeps_leaveAll _ _).after (keeps_setRoute _ _ _))
  · exact (keeps_leaveAll _ _).after (keeps_setRoute _ _ _)

theorem keeps_releaseFinal (r n : Nat) (q : RouteRec) (s : State) : s.KeepsTrains (releaseFinal r n q s) := by
  unfold releaseFinal
  split
  · exact refl s
  · split
    · exact (keeps_reexamine _).after ((fold (fun _ _ => keeps_leavePoint _ _ _) _ _).after (keeps_releaseSection _ _ _ _))
    · exact refl s

theorem keeps_releaseOverlap (r n : Nat) (q : RouteRec) (s : State) : s.KeepsTrains (releaseOverlap r n q s) := by
  unfold releaseOverlap
  split
  · exact fold (keeps_freeSection r q.cfg) _ _
  · exact refl s

theorem keeps_releaseRemoved (r n : Nat) (q : RouteRec) (x : Nat) (s : State) :
    s.KeepsTrains (releaseRemoved r n q x s) := by
  unfold releaseRemoved
  split
  · exact keeps_releaseFinal _ _ _ _
  · split
    · exact keeps_freeSection _ _ _ _
    · exact refl s

theorem keeps_judgeReleases (removed : Option Nat) (r : Nat) (s : State) :
    s.KeepsTrains (judgeReleases removed r s) := by
  unfold judgeReleases
  split
  · exact refl s
  · split
    · split
      · refine (keeps_idleIfFree _ _).after ?_
        split
        · exact (keeps_releaseOverlap _ _ _ _).after ((keeps_releaseFinal _ _ _ _).after (fold (keeps_freeSection _ _) _ _))
        · refine (keeps_giveUp _ _ _).after ?_
          split
          · exact keeps_releaseRemoved _ _ _ _ _
          · exact refl s
      · exact refl s
    · exact refl s

theorem keeps_judgeDwell (r : Nat) (s : State) : s.KeepsTrains (judgeDwell r s) := by
  unfold judgeDwell
  repeat' first
    | exact refl s
    | exact keeps_setRoute _ _ _
    | split

theorem keeps_startOverlap (r x : Nat) (s : State) : s.KeepsTrains (startOverlap r x s) := by
  unfold startOverlap
  split
  · exact refl s
  · split
    · dsimp only
      split
      · exact (keeps_judgeReleases _ _ _).after ((keeps_setRoute _ _ _).after (keeps_setRoute _ _ _))
      · exact (keeps_setRoute _ _ _).after (keeps_setRoute _ _ _)
    · exact refl s

theorem keeps_appendToRoute (x r : Nat) (s : State) : s.KeepsTrains (appendToRoute x r s) := by
  unfold appendToRoute
  exact (keeps_judgeReleases _ _ _).after ((keeps_judgeDwell _ _).after ((keeps_startOverlap _ _ _).after (keeps_setRoute _ _ _)))

/-- What the interlocking does at an append keeps every train (R70 to R75, R105). -/
theorem keeps_ixAppend (n x : Nat) (prev : Option ListEntry) (s : State) : s.KeepsTrains (ixAppend n x prev s) :=
  (fold (keeps_appendToRoute x) _ _).after (fold (fun _ _ => keeps_changeRoute _ _ _ _ _) _ _)

/-- What the interlocking does at a removal or a reversal keeps every train (R71 to R74, R105). -/
theorem keeps_ixListChange (n : Nat) (removed : Option Nat) (s : State) : s.KeepsTrains (ixListChange n removed s) :=
  fold (fun _ _ => (keeps_judgeReleases _ _ _).after (keeps_judgeDwell _ _)) _ _

/-- What the interlocking does of a train that is gone keeps every train (R74, R75, R105). -/
theorem keeps_ixTrainGone (n : Nat) (s : State) : s.KeepsTrains (ixTrainGone n s) := by
  refine fold (fun r u => ?_) _ _
  split
  · exact (keeps_idleIfFree _ _).after ((keeps_giveUp _ _ _).after (keeps_setRoute _ _ _))
  · exact refl u

/-! ## Trains as the tracker changes them -/

/-- A change of train `n`, its hold set among it, is found, and every other train is as it was. -/
theorem train?_changeHolds (s : State) (n m : Nat) (f : TrainRec → TrainRec) :
    (changeHolds n f s).train? m = if m = n then (s.train? m).map f else s.train? m := by
  unfold changeHolds
  split
  · next h => split <;> simp_all
  · dsimp only; split <;> exact train?_setTrain s n m f

theorem keys_changeHolds (s : State) (n : Nat) (f : TrainRec → TrainRec) :
    Table.keys (changeHolds n f s).tt.trains = Table.keys s.tt.trains := by
  unfold changeHolds
  split
  · rfl
  · dsimp only; split <;> exact keys_setTrain s n f

/-- A change of a hold set is handed on behind what waits (R91). -/
theorem agenda_changeHolds (s : State) (n : Nat) (f : TrainRec → TrainRec) :
    ∀ x ∈ s.agenda, x ∈ (changeHolds n f s).agenda := by
  intro x h
  unfold changeHolds
  split
  · exact h
  · dsimp only
    split
    · exact h
    · exact List.mem_append_left _ h

/-- The same change of several trains, one after the other. -/
theorem train?_foldState_changeHolds (f : TrainRec → TrainRec) (idem : ∀ a, f (f a) = f a) (ns : List Nat) (s : State)
    (m : Nat) : (foldState (fun n s => changeHolds n f s) ns s).train? m =
      (s.train? m).map fun a => if m ∈ ns then f a else a := by
  induction ns generalizing s with
  | nil => simp [foldState]
  | cons n ns ih =>
    rw [foldState, ih, train?_changeHolds]
    cases s.train? m <;> by_cases h : m = n <;> by_cases g : m ∈ ns <;> simp [h, g, idem]

theorem keys_endAmbiguity (s : State) (x : Nat) :
    Table.keys (endAmbiguity x s).tt.trains = Table.keys s.tt.trains := by
  unfold endAmbiguity
  generalize s.trainsWith _ = ns
  induction ns generalizing s with
  | nil => rfl
  | cons n ns ih => rw [foldState, ih, keys_changeHolds]

theorem agenda_endAmbiguity (s : State) (x : Nat) : ∀ y ∈ s.agenda, y ∈ (endAmbiguity x s).agenda := by
  unfold endAmbiguity
  generalize s.trainsWith _ = ns
  induction ns generalizing s with
  | nil => exact fun _ h => h
  | cons n ns ih => exact fun y h => ih _ y (agenda_changeHolds _ _ _ y h)

/-- Section `x` is no train's ambiguity section any more, and nothing else of a train changes (R96). -/
theorem train?_endAmbiguity {s : State} (w : Table.wf s.tt.trains = true) (x m : Nat) :
    (endAmbiguity x s).train? m =
      (s.train? m).map fun a => if a.ambiguity = some x then { a with ambiguity := none } else a := by
  unfold endAmbiguity
  rw [train?_foldState_changeHolds (fun t => { t with ambiguity := none }) fun _ => rfl]
  cases h : s.train? m with
  | none => rfl
  | some a => simp only [Option.map_some, mem_trainsWith w, h, Option.some.injEq, exists_eq_left', beq_iff_eq]

/-- What kept a train keeps it when the ambiguity of section `x` ends before and after. -/
theorem State.KeepsTrain.endAmbiguity {u : State} {a b : TrainRec} (x : Nat) (h : u.KeepsTrain a b) :
    u.KeepsTrain (if a.ambiguity = some x then { a with ambiguity := none } else a)
      (if b.ambiguity = some x then { b with ambiguity := none } else b) := by
  obtain ⟨hm, hr⟩ := h
  have e : b = { a with onTurn := b.onTurn, mark := b.mark } := by rw [← hr]
  generalize b.onTurn = o, b.mark = q at e
  subst e
  dsimp only
  split <;> exact ⟨hm, rfl⟩

theorem keeps_carryPlaced (n x : Nat) (s : State) : s.KeepsTrains (carryPlaced n x s) := by
  unfold carryPlaced
  split
  · exact keeps_carry _ _
  · exact refl s

/-- What follows a placing or a re-finding gives ON-TURN at most (R93, R97, R131). -/
theorem keeps_settled (n x : Nat) (s : State) : s.KeepsTrains (settled n x s) :=
  (keeps_hand _ _).after ((keeps_hand _ _).after ((keeps_hand _ _).after (keeps_carryPlaced _ _ _)))

end Sys2Proof.Machine
end

