-- ==== Sys2Proof/Laws/Quiet.lean ====
section
/-! SUPPORT. No hand-over of an arrival, and no settling of the aspects, changes what `State.quiet` shows: the
frame of `workOut`, one lemma for each operation, cited by the next. -/

namespace Sys2Proof.Machine

open Sys2Proof

set_option linter.unusedSimpArgs false

/-- A change of nothing that the view holds. -/
theorem quiet_mk (p : Bool) (q : List Instr) (a : List Notice) (fr : Nat) (s : State) :
    (State.mk p q s.now a fr s.mode s.sections s.fc s.pu s.ix s.tt s.dg s.tu s.vu s.ss s.hl).quiet = s.quiet := rfl

theorem quiet_pu (p : Bool) (q : List Instr) (a : List Notice) (fr : Nat) (s : State) (x : PointUnit)
    (h : x.recharge = s.pu.recharge) (h' : x.detectTimeout = s.pu.detectTimeout) :
    (State.mk p q s.now a fr s.mode s.sections s.fc x s.ix s.tt s.dg s.tu s.vu s.ss s.hl).quiet = s.quiet := by
  simp only [State.quiet, h, h']

theorem quiet_ix (p : Bool) (q : List Instr) (a : List Notice) (fr : Nat) (s : State) (x : Interlocking)
    (h : x.shuntCap = s.ix.shuntCap) (h' : x.cautionCap = s.ix.cautionCap) (h'' : x.prelimCap = s.ix.prelimCap) :
    (State.mk p q s.now a fr s.mode s.sections s.fc s.pu x s.tt s.dg s.tu s.vu s.ss s.hl).quiet = s.quiet := by
  simp only [State.quiet, h, h', h'']

theorem quiet_tt (p : Bool) (q : List Instr) (a : List Notice) (fr : Nat) (s : State) (x : Tracker)
    (h : x.lostTime = s.tt.lostTime) :
    (State.mk p q s.now a fr s.mode s.sections s.fc s.pu s.ix x s.dg s.tu s.vu s.ss s.hl).quiet = s.quiet := by
  simp only [State.quiet, h]

theorem quiet_dg (p : Bool) (q : List Instr) (a : List Notice) (fr : Nat) (s : State) (r f : List Nat) :
    (State.mk p q s.now a fr s.mode s.sections s.fc s.pu s.ix s.tt { s.dg with replacement := r, fallen := f } s.tu s.vu
      s.ss s.hl).quiet = s.quiet := rfl

theorem quiet_tu (p : Bool) (q : List Instr) (a : List Notice) (fr : Nat) (s : State) (x : Turntable)
    (h : x.bridge = s.tu.bridge) (h' : x.roads = s.tu.roads) :
    (State.mk p q s.now a fr s.mode s.sections s.fc s.pu s.ix s.tt s.dg x s.vu s.ss s.hl).quiet = s.quiet := by
  simp only [State.quiet, h, h']

theorem quiet_vu (p : Bool) (q : List Instr) (a : List Notice) (fr : Nat) (s : State) (x : Visitor)
    (h : x.boards = s.vu.boards) (h1 : x.boardQueue = s.vu.boardQueue) (h2 : x.link = s.vu.link)
    (h3 : x.judgeDue = s.vu.judgeDue) :
    (State.mk p q s.now a fr s.mode s.sections s.fc s.pu s.ix s.tt s.dg s.tu x s.ss s.hl).quiet = s.quiet := by
  simp only [State.quiet, h, h1, h2, h3]

theorem quiet_foldState {α : Type} (f : α → State → State) (h : ∀ a s, (f a s).quiet = s.quiet) (l : List α)
    (s : State) : (foldState f l s).quiet = s.quiet := by
  induction l generalizing s with
  | nil => rfl
  | cons a rest ih => rw [foldState, ih, h]

/-- A route lock is no part of the view. -/
theorem quiet_lock (s : State) (x : Nat) (r : Option Nat) :
    (s.setSection x fun q => { q with lock := r }).quiet = s.quiet := by
  simp only [State.quiet, State.setSection, Table.update, List.map_map]
  congr 1
  apply List.map_congr_left
  rintro ⟨k, v⟩ -
  simp only [Function.comp]
  split <;> rfl

theorem quiet_report (s : State) (r : Report) : (s.report r).quiet = s.quiet := by
  unfold State.report HostLink.report
  split
  · split <;> rfl
  · rfl

theorem quiet_hand (s : State) (n : Notice) : (State.hand s n).quiet = s.quiet := by
  unfold State.hand
  repeat' first
    | with_reducible rfl
    | simp only [quiet_mk, quiet_pu, quiet_ix, quiet_tt, quiet_dg, quiet_tu, quiet_vu, quiet_lock]
    | split

theorem quiet_handAll (s : State) (ns : List Notice) : (State.handAll s ns).quiet = s.quiet := by
  unfold State.handAll
  repeat' first
    | with_reducible rfl
    | simp only [quiet_mk, quiet_pu, quiet_ix, quiet_tt, quiet_dg, quiet_tu, quiet_vu, quiet_lock]
    | split

theorem quiet_askReexamine (s : State) : (State.askReexamine s).quiet = s.quiet := by
  unfold State.askReexamine
  repeat' first
    | with_reducible rfl
    | simp only [quiet_mk, quiet_pu, quiet_ix, quiet_tt, quiet_dg, quiet_tu, quiet_vu, quiet_lock, quiet_hand]
    | split

theorem quiet_setPoint (s : State) (p : Nat) (f : PointRec → PointRec) : (State.setPoint s p f).quiet = s.quiet := by
  unfold State.setPoint
  repeat' first
    | with_reducible rfl
    | simp only [quiet_mk, quiet_pu, quiet_ix, quiet_tt, quiet_dg, quiet_tu, quiet_vu, quiet_lock]
    | split

theorem quiet_setRoute (s : State) (r : Nat) (f : RouteRec → RouteRec) : (State.setRoute s r f).quiet = s.quiet := by
  unfold State.setRoute
  repeat' first
    | with_reducible rfl
    | simp only [quiet_mk, quiet_pu, quiet_ix, quiet_tt, quiet_dg, quiet_tu, quiet_vu, quiet_lock]
    | split

theorem quiet_setTrain (s : State) (n : Nat) (f : TrainRec → TrainRec) : (State.setTrain s n f).quiet = s.quiet := by
  unfold State.setTrain
  repeat' first
    | with_reducible rfl
    | simp only [quiet_mk, quiet_pu, quiet_ix, quiet_tt, quiet_dg, quiet_tu, quiet_vu, quiet_lock]
    | split

theorem quiet_setShow (s : State) (n : Nat) (f : ShowRec → ShowRec) : (State.setShow s n f).quiet = s.quiet := by
  unfold State.setShow
  repeat' first
    | with_reducible rfl
    | simp only [quiet_mk, quiet_pu, quiet_ix, quiet_tt, quiet_dg, quiet_tu, quiet_vu, quiet_lock]
    | split

theorem quiet_setTurn (s : State) (f : Turntable → Turntable) (h : (f s.tu).bridge = s.tu.bridge)
    (h' : (f s.tu).roads = s.tu.roads) : (s.setTurn f).quiet = s.quiet := quiet_tu _ _ _ _ s _ h h'

theorem quiet_changePoint (p : Nat) (f : PointRec → PointRec) (rep : Report) (e : PointEvent) (s : State) :
    (changePoint p f rep e s).quiet = s.quiet := by
  unfold changePoint
  repeat' first
    | with_reducible rfl
    | simp only [quiet_mk, quiet_pu, quiet_ix, quiet_tt, quiet_dg, quiet_tu, quiet_vu, quiet_lock, quiet_report,
      quiet_hand, quiet_setPoint]
    | split

theorem quiet_dropPoint (p : Nat) (cause : DropCause) (s : State) : (dropPoint p cause s).quiet = s.quiet := by
  unfold dropPoint
  repeat' first
    | with_reducible rfl
    | simp only [quiet_mk, quiet_pu, quiet_ix, quiet_tt, quiet_dg, quiet_tu, quiet_vu, quiet_lock,
      quiet_changePoint]
    | split

theorem quiet_unqueue (s : State) (p : Nat) : (State.unqueue s p).quiet = s.quiet := by
  unfold State.unqueue
  repeat' first
    | with_reducible rfl
    | simp only [quiet_mk, quiet_pu, quiet_ix, quiet_tt, quiet_dg, quiet_tu, quiet_vu, quiet_lock]
    | split

theorem quiet_startPulse (p : Nat) (pos : PointPos) (s : State) : (startPulse p pos s).quiet = s.quiet := by
  unfold startPulse
  repeat' first
    | with_reducible rfl
    | simp only [quiet_mk, quiet_pu, quiet_ix, quiet_tt, quiet_dg, quiet_tu, quiet_vu, quiet_lock, quiet_setPoint]
    | split

theorem quiet_pulseFrom (k : Nat) (s : State) : (pulseFrom k s).quiet = s.quiet := by
  induction k generalizing s with
  | zero => rfl
  | succ k ih =>
    unfold pulseFrom
    repeat' first | with_reducible rfl | simp only [quiet_mk, quiet_pu, quiet_ix, quiet_dg, quiet_startPulse, quiet_dropPoint, quiet_askReexamine, ih] | split

theorem quiet_considerPulse (s : State) : (considerPulse s).quiet = s.quiet := by
  unfold considerPulse
  repeat' first
    | with_reducible rfl
    | simp only [quiet_mk, quiet_pu, quiet_ix, quiet_tt, quiet_dg, quiet_tu, quiet_vu, quiet_lock, quiet_pulseFrom]
    | split

theorem quiet_completeThrow (p : Nat) (pos : PointPos) (s : State) : (completeThrow p pos s).quiet = s.quiet := by
  unfold completeThrow
  repeat' first
    | with_reducible rfl
    | simp only [quiet_mk, quiet_pu, quiet_ix, quiet_tt, quiet_dg, quiet_tu, quiet_vu, quiet_lock,
      quiet_askReexamine, quiet_changePoint]
    | split

theorem quiet_endPulse (s : State) : (endPulse s).quiet = s.quiet := by
  unfold endPulse
  repeat' first
    | with_reducible rfl
    | simp only [quiet_mk, quiet_pu, quiet_ix, quiet_tt, quiet_dg, quiet_tu, quiet_vu, quiet_lock, quiet_setPoint,
      quiet_completeThrow]
    | split

theorem quiet_cutPulse (s : State) : (cutPulse s).quiet = s.quiet := by
  unfold cutPulse
  repeat' first
    | with_reducible rfl
    | simp only [quiet_mk, quiet_pu, quiet_ix, quiet_tt, quiet_dg, quiet_tu, quiet_vu, quiet_lock]
    | split

theorem quiet_pointsUpdate (n : Nat) (s : State) : (pointsUpdate n s).quiet = s.quiet := by
  unfold pointsUpdate
  repeat' first
    | with_reducible rfl
    | simp only [quiet_mk, quiet_pu, quiet_ix, quiet_tt, quiet_dg, quiet_tu, quiet_vu, quiet_lock, quiet_endPulse,
      quiet_cutPulse]
    | split

theorem quiet_judgeAtRest (p : Nat) (r : PointRec) (s : State) : (judgeAtRest p r s).quiet = s.quiet := by
  unfold judgeAtRest
  repeat' first
    | with_reducible rfl
    | simp only [quiet_mk, quiet_pu, quiet_ix, quiet_tt, quiet_dg, quiet_tu, quiet_vu, quiet_lock,
      quiet_changePoint]
    | split

theorem quiet_commandPoint (p : Nat) (pos : PointPos) (ph : Phase) (s : State) :
    (commandPoint p pos ph s).quiet = s.quiet := by
  unfold commandPoint
  repeat' first
    | with_reducible rfl
    | simp only [quiet_mk, quiet_pu, quiet_ix, quiet_tt, quiet_dg, quiet_tu, quiet_vu, quiet_lock, quiet_setPoint,
      quiet_changePoint]
    | split

theorem quiet_joinQueue (p : Nat) (pos : PointPos) (ph : Phase) (s : State) :
    (joinQueue p pos ph s).quiet = s.quiet := by
  unfold joinQueue
  repeat' first
    | with_reducible rfl
    | simp only [quiet_mk, quiet_pu, quiet_ix, quiet_tt, quiet_dg, quiet_tu, quiet_vu, quiet_lock,
      quiet_considerPulse, quiet_commandPoint]
    | split

theorem quiet_replaceEntry (p : Nat) (pos : PointPos) (ph : Phase) (s : State) :
    (replaceEntry p pos ph s).quiet = s.quiet := by
  unfold replaceEntry
  repeat' first
    | with_reducible rfl
    | simp only [quiet_mk, quiet_pu, quiet_ix, quiet_tt, quiet_dg, quiet_tu, quiet_vu, quiet_lock,
      quiet_commandPoint]
    | split

theorem quiet_throwPoint (p : Nat) (pos : PointPos) (s : State) : (throwPoint p pos s).quiet = s.quiet := by
  unfold throwPoint
  repeat' first
    | with_reducible rfl
    | simp only [quiet_mk, quiet_pu, quiet_ix, quiet_tt, quiet_dg, quiet_tu, quiet_vu, quiet_lock, quiet_joinQueue,
      quiet_replaceEntry]
    | split

theorem quiet_withdrawThrow (p : Nat) (s : State) : (withdrawThrow p s).quiet = s.quiet := by
  unfold withdrawThrow
  repeat' first
    | with_reducible rfl
    | simp only [quiet_mk, quiet_pu, quiet_ix, quiet_tt, quiet_dg, quiet_tu, quiet_vu, quiet_lock,
      quiet_askReexamine, quiet_dropPoint, quiet_unqueue]
    | split

theorem quiet_pointsStop (s : State) : (pointsStop s).quiet = s.quiet := by
  unfold pointsStop
  repeat' first
    | with_reducible rfl
    | simp only [quiet_mk, quiet_pu, quiet_ix, quiet_tt, quiet_dg, quiet_tu, quiet_vu, quiet_lock,
      quiet_askReexamine, quiet_dropPoint, quiet_unqueue, quiet_cutPulse]
    | with_reducible refine (quiet_foldState _ (fun a s => ?_) _ _).trans ?_
    | split

theorem quiet_refreshSignals (s : State) : (refreshSignals s).quiet = s.quiet := rfl

theorem quiet_handAspects (before l : List (Nat × Aspect)) (s : State) : (handAspects before l s).quiet = s.quiet := by
  induction l generalizing s with
  | nil => rfl
  | cons e rest ih =>
    obtain ⟨g, a⟩ := e
    unfold handAspects
    repeat' first | with_reducible rfl | simp only [quiet_mk, quiet_pu, quiet_ix, quiet_dg, quiet_report, ih] | split

theorem quiet_settleSignals (before : List (Nat × Aspect)) (s : State) :
    (settleSignals before s).quiet = s.quiet := by
  unfold settleSignals
  repeat' first
    | with_reducible rfl
    | simp only [quiet_mk, quiet_pu, quiet_ix, quiet_tt, quiet_dg, quiet_tu, quiet_vu, quiet_lock,
      quiet_refreshSignals, quiet_handAspects]
    | split

theorem quiet_carry (n : Nat) (s : State) : (carry n s).quiet = s.quiet := by
  unfold carry
  repeat' first
    | with_reducible rfl
    | simp only [quiet_mk, quiet_pu, quiet_ix, quiet_tt, quiet_dg, quiet_tu, quiet_vu, quiet_lock, quiet_hand,
      quiet_setTrain, quiet_setTurn]
    | split

theorem quiet_takeCarried (s : State) : (takeCarried s).quiet = s.quiet := by
  unfold takeCarried
  repeat' first
    | with_reducible rfl
    | simp only [quiet_mk, quiet_pu, quiet_ix, quiet_tt, quiet_dg, quiet_tu, quiet_vu, quiet_lock, quiet_carry]
    | split

theorem quiet_releaseCarried (s : State) : (releaseCarried s).quiet = s.quiet := by
  unfold releaseCarried
  repeat' first
    | with_reducible rfl
    | simp only [quiet_mk, quiet_pu, quiet_ix, quiet_tt, quiet_dg, quiet_tu, quiet_vu, quiet_lock, quiet_hand,
      quiet_setTrain, quiet_setTurn]
    | split

theorem quiet_carryPlaced (n x : Nat) (s : State) : (carryPlaced n x s).quiet = s.quiet := by
  unfold carryPlaced
  repeat' first
    | with_reducible rfl
    | simp only [quiet_mk, quiet_pu, quiet_ix, quiet_tt, quiet_dg, quiet_tu, quiet_vu, quiet_lock, quiet_carry]
    | split

theorem quiet_dropCarried (n : Nat) (s : State) : (dropCarried n s).quiet = s.quiet := by
  unfold dropCarried
  repeat' first
    | with_reducible rfl
    | simp only [quiet_mk, quiet_pu, quiet_ix, quiet_tt, quiet_dg, quiet_tu, quiet_vu, quiet_lock,
      quiet_releaseCarried]
    | split

theorem quiet_endStepping (s : State) : (endStepping s).quiet = s.quiet := by
  unfold endStepping
  repeat' first
    | with_reducible rfl
    | simp only [quiet_mk, quiet_pu, quiet_ix, quiet_tt, quiet_dg, quiet_tu, quiet_vu, quiet_lock]
    | split

theorem quiet_tellOrigin (m : Move) (out : MoveOutcome) (s : State) : (tellOrigin m out s).quiet = s.quiet := by
  unfold tellOrigin
  repeat' first
    | with_reducible rfl
    | simp only [quiet_mk, quiet_pu, quiet_ix, quiet_tt, quiet_dg, quiet_tu, quiet_vu, quiet_lock, quiet_hand,
      quiet_setRoute]
    | split

theorem quiet_restAt (pos : Nat) (s : State) : (restAt pos s).quiet = s.quiet := by
  unfold restAt
  repeat' first
    | with_reducible rfl
    | simp only [quiet_mk, quiet_pu, quiet_ix, quiet_tt, quiet_dg, quiet_tu, quiet_vu, quiet_lock, quiet_report,
      quiet_hand, quiet_setTurn, quiet_releaseCarried, quiet_endStepping, quiet_tellOrigin]
    | split

theorem quiet_losePosition (st : BridgeState) (rep : Report) (s : State) :
    (losePosition st rep s).quiet = s.quiet := by
  unfold losePosition
  repeat' first
    | with_reducible rfl
    | simp only [quiet_mk, quiet_pu, quiet_ix, quiet_tt, quiet_dg, quiet_tu, quiet_vu, quiet_lock, quiet_report,
      quiet_hand, quiet_setTurn, quiet_releaseCarried, quiet_endStepping, quiet_tellOrigin]
    | split

theorem quiet_beginMove (k : Nat) (e : BridgeEnd) (dir : Option MoveDir) (origin : Origin) (s : State) :
    (beginMove k e dir origin s).1.quiet = s.quiet := by
  unfold beginMove; repeat' first | with_reducible rfl | simp only [quiet_setTurn, quiet_report, quiet_hand, quiet_takeCarried] | split

theorem quiet_requestMove {k : Nat} {e : BridgeEnd} {dir : Option MoveDir} {origin : Origin} {s s1 : State}
    {w : Option MoveDir} (h : requestMove k e dir origin s = .ok (s1, w)) : s1.quiet = s.quiet := by
  unfold requestMove at h
  split at h
  · cases h
  · rw [← quiet_beginMove k e dir origin s, Except.ok.inj h]

theorem quiet_turntableStop (s : State) : (turntableStop s).quiet = s.quiet := by
  unfold turntableStop
  repeat' first
    | with_reducible rfl
    | simp only [quiet_mk, quiet_pu, quiet_ix, quiet_tt, quiet_dg, quiet_tu, quiet_vu, quiet_lock, quiet_restAt,
      quiet_losePosition]
    | split

theorem quiet_leavePoint (r p : Nat) (s : State) : (leavePoint r p s).quiet = s.quiet := by
  unfold leavePoint
  repeat' first
    | with_reducible rfl
    | simp only [quiet_mk, quiet_pu, quiet_ix, quiet_tt, quiet_dg, quiet_tu, quiet_vu, quiet_lock, quiet_setPoint]
    | split

theorem quiet_leaveBridge (r : Nat) (s : State) : (leaveBridge r s).quiet = s.quiet := by
  unfold leaveBridge
  repeat' first
    | with_reducible rfl
    | simp only [quiet_mk, quiet_pu, quiet_ix, quiet_tt, quiet_dg, quiet_tu, quiet_vu, quiet_lock, quiet_setTurn]
    | split

theorem quiet_releaseSection (r : Nat) (c : RouteCfg) (x : Nat) (s : State) :
    (releaseSection r c x s).quiet = s.quiet := by
  unfold releaseSection
  repeat' first
    | with_reducible rfl
    | simp only [quiet_mk, quiet_pu, quiet_ix, quiet_tt, quiet_dg, quiet_tu, quiet_vu, quiet_lock, quiet_leavePoint,
      quiet_leaveBridge]
    | split

theorem quiet_leaveAll (r : Nat) (s : State) : (leaveAll r s).quiet = s.quiet := by
  unfold leaveAll
  repeat' first
    | with_reducible rfl
    | simp only [quiet_mk, quiet_pu, quiet_ix, quiet_tt, quiet_dg, quiet_tu, quiet_vu, quiet_lock, quiet_leavePoint,
      quiet_leaveBridge]
    | with_reducible refine (quiet_foldState _ (fun a s => ?_) _ _).trans ?_
    | split

theorem quiet_changeRoute (r : Nat) (st : RouteState) (rep : Report) (f : RouteRec → RouteRec) (s : State) :
    (changeRoute r st rep f s).quiet = s.quiet := by
  unfold changeRoute
  repeat' first
    | with_reducible rfl
    | simp only [quiet_mk, quiet_pu, quiet_ix, quiet_tt, quiet_dg, quiet_tu, quiet_vu, quiet_lock, quiet_report,
      quiet_hand, quiet_setRoute]
    | split

theorem quiet_setMark (n : Nat) (m : RequestMark) (s : State) : (setMark n m s).quiet = s.quiet := by
  unfold setMark
  repeat' first
    | with_reducible rfl
    | simp only [quiet_mk, quiet_pu, quiet_ix, quiet_tt, quiet_dg, quiet_tu, quiet_vu, quiet_lock, quiet_setTrain]
    | split

theorem quiet_clearStarted (r : Nat) (s : State) : (clearStarted r s).quiet = s.quiet := by
  unfold clearStarted
  repeat' first
    | with_reducible rfl
    | simp only [quiet_mk, quiet_pu, quiet_ix, quiet_tt, quiet_dg, quiet_tu, quiet_vu, quiet_lock, quiet_setMark]
    | with_reducible refine (quiet_foldState _ (fun a s => ?_) _ _).trans ?_
    | split

theorem quiet_idleRoute (r : Nat) (s : State) : (idleRoute r s).quiet = s.quiet := by
  unfold idleRoute
  repeat' first
    | with_reducible rfl
    | simp only [quiet_mk, quiet_pu, quiet_ix, quiet_tt, quiet_dg, quiet_tu, quiet_vu, quiet_lock,
      quiet_askReexamine, quiet_changeRoute, quiet_clearStarted]
    | split

theorem quiet_withdrawIfFree (p : Nat) (s : State) : (withdrawIfFree p s).quiet = s.quiet := by
  unfold withdrawIfFree
  repeat' first
    | with_reducible rfl
    | simp only [quiet_mk, quiet_pu, quiet_ix, quiet_tt, quiet_dg, quiet_tu, quiet_vu, quiet_lock,
      quiet_withdrawThrow]
    | split

theorem quiet_fullRelease (r : Nat) (s : State) : (fullRelease r s).quiet = s.quiet := by
  unfold fullRelease
  repeat' first
    | with_reducible rfl
    | simp only [quiet_mk, quiet_pu, quiet_ix, quiet_tt, quiet_dg, quiet_tu, quiet_vu, quiet_lock, quiet_setRoute,
      quiet_leaveAll, quiet_withdrawIfFree]
    | with_reducible refine (quiet_foldState _ (fun a s => ?_) _ _).trans ?_
    | split

theorem quiet_releaseToIdle (r : Nat) (s : State) : (releaseToIdle r s).quiet = s.quiet := by
  unfold releaseToIdle
  repeat' first
    | with_reducible rfl
    | simp only [quiet_mk, quiet_pu, quiet_ix, quiet_tt, quiet_dg, quiet_tu, quiet_vu, quiet_lock, quiet_idleRoute,
      quiet_fullRelease]
    | split

theorem quiet_failRoute (r : Nat) (cause : FailCause) (s : State) : (failRoute r cause s).quiet = s.quiet := by
  unfold failRoute
  repeat' first
    | with_reducible rfl
    | simp only [quiet_mk, quiet_pu, quiet_ix, quiet_tt, quiet_dg, quiet_tu, quiet_vu, quiet_lock, quiet_report,
      quiet_hand, quiet_releaseToIdle]
    | split

theorem quiet_testProof (r : Nat) (s : State) : (testProof r s).quiet = s.quiet := by
  unfold testProof
  repeat' first
    | with_reducible rfl
    | simp only [quiet_mk, quiet_pu, quiet_ix, quiet_tt, quiet_dg, quiet_tu, quiet_vu, quiet_lock,
      quiet_changeRoute]
    | split

theorem quiet_askMove (r k : Nat) (e : BridgeEnd) (s : State) : (askMove r k e s).quiet = s.quiet := by
  unfold askMove
  repeat' first | with_reducible rfl | exact quiet_requestMove ‹_› | exact (quiet_setRoute _ _ _).trans (quiet_requestMove ‹_›) | simp only [quiet_hand] | split

theorem quiet_enterSetting (r : Nat) (c : RouteCfg) (s : State) : (enterSetting r c s).quiet = s.quiet := by
  unfold enterSetting
  repeat' first
    | with_reducible rfl
    | simp only [quiet_mk, quiet_pu, quiet_ix, quiet_tt, quiet_dg, quiet_tu, quiet_vu, quiet_lock, quiet_setPoint,
      quiet_setRoute, quiet_setTurn, quiet_throwPoint, quiet_changeRoute, quiet_testProof, quiet_askMove]
    | with_reducible refine (quiet_foldState _ (fun a s => ?_) _ _).trans ?_
    | split

theorem quiet_unrequest (s : State) (r : Nat) : (State.unrequest s r).quiet = s.quiet := by
  unfold State.unrequest
  repeat' first
    | with_reducible rfl
    | simp only [quiet_mk, quiet_pu, quiet_ix, quiet_tt, quiet_dg, quiet_tu, quiet_vu, quiet_lock]
    | split

theorem quiet_startRequest (r : Nat) (s : State) : (startRequest r s).quiet = s.quiet := by
  unfold startRequest
  repeat' first
    | with_reducible rfl
    | simp only [quiet_mk, quiet_pu, quiet_ix, quiet_tt, quiet_dg, quiet_tu, quiet_vu, quiet_lock, quiet_hand,
      quiet_unrequest]
    | split

theorem quiet_dropRequest (r : Nat) (cause : RequestDrop) (s : State) : (dropRequest r cause s).quiet = s.quiet := by
  unfold dropRequest
  repeat' first
    | with_reducible rfl
    | simp only [quiet_mk, quiet_pu, quiet_ix, quiet_tt, quiet_dg, quiet_tu, quiet_vu, quiet_lock, quiet_report,
      quiet_hand, quiet_unrequest]
    | split

theorem quiet_visitRequest (q : Request) (s : State) : (visitRequest q s).quiet = s.quiet := by
  unfold visitRequest
  repeat' first
    | with_reducible rfl
    | simp only [quiet_mk, quiet_pu, quiet_ix, quiet_tt, quiet_dg, quiet_tu, quiet_vu, quiet_lock,
      quiet_enterSetting, quiet_startRequest]
    | split

theorem quiet_reexamine (s : State) : (reexamine s).quiet = s.quiet := by
  unfold reexamine
  repeat' first
    | with_reducible rfl
    | simp only [quiet_mk, quiet_pu, quiet_ix, quiet_tt, quiet_dg, quiet_tu, quiet_vu, quiet_lock,
      quiet_visitRequest]
    | with_reducible refine (quiet_foldState _ (fun a s => ?_) _ _).trans ?_
    | split

theorem quiet_storeRequest (r : Nat) (origin : Origin) (expiry : Option Nat) (s : State) :
    (storeRequest r origin expiry s).1.quiet = s.quiet := by
  unfold storeRequest; repeat' first | with_reducible rfl | simp only [quiet_mk, quiet_pu, quiet_ix, quiet_dg, quiet_enterSetting, quiet_report] | split

theorem quiet_of_store {r : Nat} {origin : Origin} {expiry : Option Nat} {s s1 : State} {o : StoreOutcome}
    (h : storeRequest r origin expiry s = (s1, o)) : s1.quiet = s.quiet := by
  rw [← quiet_storeRequest r origin expiry s, h]

theorem quiet_withdrawRequests (origin : Origin) (s : State) : (withdrawRequests origin s).quiet = s.quiet := by
  unfold withdrawRequests
  repeat' first
    | with_reducible rfl
    | simp only [quiet_mk, quiet_pu, quiet_ix, quiet_tt, quiet_dg, quiet_tu, quiet_vu, quiet_lock,
      quiet_dropRequest]
    | with_reducible refine (quiet_foldState _ (fun a s => ?_) _ _).trans ?_
    | split

theorem quiet_idleIfFree (r : Nat) (s : State) : (idleIfFree r s).quiet = s.quiet := by
  unfold idleIfFree
  repeat' first
    | with_reducible rfl
    | simp only [quiet_mk, quiet_pu, quiet_ix, quiet_tt, quiet_dg, quiet_tu, quiet_vu, quiet_lock, quiet_idleRoute]
    | split

theorem quiet_freeSection (r : Nat) (c : RouteCfg) (x : Nat) (s : State) : (freeSection r c x s).quiet = s.quiet := by
  unfold freeSection
  repeat' first
    | with_reducible rfl
    | simp only [quiet_mk, quiet_pu, quiet_ix, quiet_tt, quiet_dg, quiet_tu, quiet_vu, quiet_lock,
      quiet_releaseSection, quiet_reexamine]
    | split

theorem quiet_giveUp (r : Nat) (c : RouteCfg) (s : State) : (giveUp r c s).quiet = s.quiet := by
  unfold giveUp
  repeat' first
    | with_reducible rfl
    | simp only [quiet_mk, quiet_pu, quiet_ix, quiet_tt, quiet_dg, quiet_tu, quiet_vu, quiet_lock, quiet_setRoute,
      quiet_leaveAll, quiet_reexamine, quiet_freeSection]
    | with_reducible refine (quiet_foldState _ (fun a s => ?_) _ _).trans ?_
    | split

theorem quiet_releaseBehind (r n : Nat) (q : RouteRec) (s : State) : (releaseBehind r n q s).quiet = s.quiet := by
  unfold releaseBehind
  repeat' first
    | with_reducible rfl
    | simp only [quiet_mk, quiet_pu, quiet_ix, quiet_tt, quiet_dg, quiet_tu, quiet_vu, quiet_lock,
      quiet_freeSection]
    | with_reducible refine (quiet_foldState _ (fun a s => ?_) _ _).trans ?_
    | split

theorem quiet_releaseFinal (r n : Nat) (q : RouteRec) (s : State) : (releaseFinal r n q s).quiet = s.quiet := by
  unfold releaseFinal
  repeat' first
    | with_reducible rfl
    | simp only [quiet_mk, quiet_pu, quiet_ix, quiet_tt, quiet_dg, quiet_tu, quiet_vu, quiet_lock, quiet_leavePoint,
      quiet_releaseSection, quiet_reexamine]
    | with_reducible refine (quiet_foldState _ (fun a s => ?_) _ _).trans ?_
    | split

theorem quiet_releaseOverlap (r n : Nat) (q : RouteRec) (s : State) : (releaseOverlap r n q s).quiet = s.quiet := by
  unfold releaseOverlap
  repeat' first
    | with_reducible rfl
    | simp only [quiet_mk, quiet_pu, quiet_ix, quiet_tt, quiet_dg, quiet_tu, quiet_vu, quiet_lock,
      quiet_freeSection]
    | with_reducible refine (quiet_foldState _ (fun a s => ?_) _ _).trans ?_
    | split

theorem quiet_releaseRemoved (r n : Nat) (q : RouteRec) (x : Nat) (s : State) :
    (releaseRemoved r n q x s).quiet = s.quiet := by
  unfold releaseRemoved
  repeat' first
    | with_reducible rfl
    | simp only [quiet_mk, quiet_pu, quiet_ix, quiet_tt, quiet_dg, quiet_tu, quiet_vu, quiet_lock,
      quiet_freeSection, quiet_releaseFinal]
    | split

theorem quiet_judgeReleases (removed : Option Nat) (r : Nat) (s : State) :
    (judgeReleases removed r s).quiet = s.quiet := by
  unfold judgeReleases
  repeat' first
    | with_reducible rfl
    | simp only [quiet_mk, quiet_pu, quiet_ix, quiet_tt, quiet_dg, quiet_tu, quiet_vu, quiet_lock, quiet_idleIfFree,
      quiet_giveUp, quiet_releaseBehind, quiet_releaseFinal, quiet_releaseOverlap, quiet_releaseRemoved]
    | split

theorem quiet_judgeDwell (r : Nat) (s : State) : (judgeDwell r s).quiet = s.quiet := by
  unfold judgeDwell
  repeat' first
    | with_reducible rfl
    | simp only [quiet_mk, quiet_pu, quiet_ix, quiet_tt, quiet_dg, quiet_tu, quiet_vu, quiet_lock, quiet_setRoute]
    | split

theorem quiet_overlapRelease (r : Nat) (s : State) : (overlapRelease r s).quiet = s.quiet := by
  unfold overlapRelease
  repeat' first
    | with_reducible rfl
    | simp only [quiet_mk, quiet_pu, quiet_ix, quiet_tt, quiet_dg, quiet_tu, quiet_vu, quiet_lock, quiet_setRoute,
      quiet_judgeReleases]
    | split

theorem quiet_startOverlap (r x : Nat) (s : State) : (startOverlap r x s).quiet = s.quiet := by
  unfold startOverlap
  repeat' first
    | with_reducible rfl
    | simp only [quiet_mk, quiet_pu, quiet_ix, quiet_tt, quiet_dg, quiet_tu, quiet_vu, quiet_lock, quiet_setRoute,
      quiet_overlapRelease]
    | split

theorem quiet_occupyRoute (n r : Nat) (s : State) : (occupyRoute n r s).quiet = s.quiet := by
  unfold occupyRoute
  repeat' first
    | with_reducible rfl
    | simp only [quiet_mk, quiet_pu, quiet_ix, quiet_tt, quiet_dg, quiet_tu, quiet_vu, quiet_lock,
      quiet_changeRoute]
    | split

theorem quiet_appendToRoute (x r : Nat) (s : State) : (appendToRoute x r s).quiet = s.quiet := by
  unfold appendToRoute
  repeat' first
    | with_reducible rfl
    | simp only [quiet_mk, quiet_pu, quiet_ix, quiet_tt, quiet_dg, quiet_tu, quiet_vu, quiet_lock, quiet_setRoute,
      quiet_judgeReleases, quiet_judgeDwell, quiet_startOverlap]
    | split

theorem quiet_ixAppend (n x : Nat) (prev : Option ListEntry) (s : State) : (ixAppend n x prev s).quiet = s.quiet := by
  unfold ixAppend
  repeat' first
    | with_reducible rfl
    | simp only [quiet_mk, quiet_pu, quiet_ix, quiet_tt, quiet_dg, quiet_tu, quiet_vu, quiet_lock,
      quiet_occupyRoute, quiet_appendToRoute]
    | with_reducible refine (quiet_foldState _ (fun a s => ?_) _ _).trans ?_
    | split

theorem quiet_ixListChange (n : Nat) (removed : Option Nat) (s : State) :
    (ixListChange n removed s).quiet = s.quiet := by
  unfold ixListChange
  repeat' first
    | with_reducible rfl
    | simp only [quiet_mk, quiet_pu, quiet_ix, quiet_tt, quiet_dg, quiet_tu, quiet_vu, quiet_lock,
      quiet_judgeReleases, quiet_judgeDwell]
    | with_reducible refine (quiet_foldState _ (fun a s => ?_) _ _).trans ?_
    | split

theorem quiet_ixLoss (n : Nat) (s : State) : (ixLoss n s).quiet = s.quiet := by
  unfold ixLoss
  repeat' first
    | with_reducible rfl
    | simp only [quiet_mk, quiet_pu, quiet_ix, quiet_tt, quiet_dg, quiet_tu, quiet_vu, quiet_lock, quiet_judgeDwell]
    | with_reducible refine (quiet_foldState _ (fun a s => ?_) _ _).trans ?_
    | split

theorem quiet_ixTrainGone (n : Nat) (s : State) : (ixTrainGone n s).quiet = s.quiet := by
  unfold ixTrainGone
  repeat' first
    | with_reducible rfl
    | simp only [quiet_mk, quiet_pu, quiet_ix, quiet_tt, quiet_dg, quiet_tu, quiet_vu, quiet_lock, quiet_setRoute,
      quiet_idleIfFree, quiet_giveUp]
    | with_reducible refine (quiet_foldState _ (fun a s => ?_) _ _).trans ?_
    | split

theorem quiet_ixClear (x : Nat) (s : State) : (ixClear x s).quiet = s.quiet := by
  unfold ixClear
  repeat' first
    | with_reducible rfl
    | simp only [quiet_mk, quiet_pu, quiet_ix, quiet_tt, quiet_dg, quiet_tu, quiet_vu, quiet_lock,
      quiet_askReexamine, quiet_idleIfFree, quiet_freeSection]
    | split

theorem quiet_ixPoint (p : Nat) (e : PointEvent) (s : State) : (ixPoint p e s).quiet = s.quiet := by
  unfold ixPoint
  repeat' first
    | with_reducible rfl
    | simp only [quiet_mk, quiet_pu, quiet_ix, quiet_tt, quiet_dg, quiet_tu, quiet_vu, quiet_lock,
      quiet_askReexamine, quiet_failRoute, quiet_testProof]
    | with_reducible refine (quiet_foldState _ (fun a s => ?_) _ _).trans ?_
    | split

theorem quiet_ixBridge (s : State) : (ixBridge s).quiet = s.quiet := by
  unfold ixBridge
  repeat' first
    | with_reducible rfl
    | simp only [quiet_mk, quiet_pu, quiet_ix, quiet_tt, quiet_dg, quiet_tu, quiet_vu, quiet_lock,
      quiet_askReexamine, quiet_failRoute, quiet_testProof]
    | with_reducible refine (quiet_foldState _ (fun a s => ?_) _ _).trans ?_
    | split

theorem quiet_ixMoveEnded (r : Nat) (s : State) : (ixMoveEnded r s).quiet = s.quiet := by
  unfold ixMoveEnded
  repeat' first
    | with_reducible rfl
    | simp only [quiet_mk, quiet_pu, quiet_ix, quiet_tt, quiet_dg, quiet_tu, quiet_vu, quiet_lock, quiet_failRoute]
    | split

theorem quiet_routesStop (s : State) : (routesStop s).quiet = s.quiet := by
  unfold routesStop
  repeat' first
    | with_reducible rfl
    | simp only [quiet_mk, quiet_pu, quiet_ix, quiet_tt, quiet_dg, quiet_tu, quiet_vu, quiet_lock, quiet_failRoute]
    | with_reducible refine (quiet_foldState _ (fun a s => ?_) _ _).trans ?_
    | split

theorem quiet_changeHolds (n : Nat) (f : TrainRec → TrainRec) (s : State) : (changeHolds n f s).quiet = s.quiet := by
  unfold changeHolds
  repeat' first
    | with_reducible rfl
    | simp only [quiet_mk, quiet_pu, quiet_ix, quiet_tt, quiet_dg, quiet_tu, quiet_vu, quiet_lock, quiet_hand,
      quiet_setTrain]
    | split

theorem quiet_endAmbiguity (x : Nat) (s : State) : (endAmbiguity x s).quiet = s.quiet := by
  unfold endAmbiguity
  repeat' first
    | with_reducible rfl
    | simp only [quiet_mk, quiet_pu, quiet_ix, quiet_tt, quiet_dg, quiet_tu, quiet_vu, quiet_lock,
      quiet_changeHolds]
    | with_reducible refine (quiet_foldState _ (fun a s => ?_) _ _).trans ?_
    | split

theorem quiet_placement (n : Nat) (s : State) : (placement n s).quiet = s.quiet := by
  unfold placement
  repeat' first | with_reducible rfl | exact quiet_of_store ‹_› | (simp only [quiet_setMark]; exact quiet_of_store ‹_›) | split

theorem quiet_ttRequestStarted (r : Nat) (s : State) : (ttRequestStarted r s).quiet = s.quiet := by
  unfold ttRequestStarted
  repeat' first
    | with_reducible rfl
    | simp only [quiet_mk, quiet_pu, quiet_ix, quiet_tt, quiet_dg, quiet_tu, quiet_vu, quiet_lock, quiet_setMark]
    | with_reducible refine (quiet_foldState _ (fun a s => ?_) _ _).trans ?_
    | split

theorem quiet_ttRequestDropped (r : Nat) (s : State) : (ttRequestDropped r s).quiet = s.quiet := by
  unfold ttRequestDropped
  repeat' first
    | with_reducible rfl
    | simp only [quiet_mk, quiet_pu, quiet_ix, quiet_tt, quiet_dg, quiet_tu, quiet_vu, quiet_lock, quiet_setMark]
    | with_reducible refine (quiet_foldState _ (fun a s => ?_) _ _).trans ?_
    | split

theorem quiet_ttRouteChange (r : Nat) (st : RouteState) (s : State) : (ttRouteChange r st s).quiet = s.quiet := by
  unfold ttRouteChange
  repeat' first
    | with_reducible rfl
    | simp only [quiet_mk, quiet_pu, quiet_ix, quiet_tt, quiet_dg, quiet_tu, quiet_vu, quiet_lock, quiet_hand,
      quiet_handAll, quiet_setTrain, quiet_setMark]
    | with_reducible refine (quiet_foldState _ (fun a s => ?_) _ _).trans ?_
    | split

theorem quiet_passSignal (n g : Nat) (a : Aspect) (s : State) : (passSignal n g a s).quiet = s.quiet := by
  unfold passSignal
  repeat' first
    | with_reducible rfl
    | simp only [quiet_mk, quiet_pu, quiet_ix, quiet_tt, quiet_dg, quiet_tu, quiet_vu, quiet_lock, quiet_report,
      quiet_hand, quiet_setTrain, quiet_changeHolds]
    | split

theorem quiet_judgePass (n x : Nat) (e : EndName) (aspect : Nat → Aspect) (s : State) :
    (judgePass n x e aspect s).quiet = s.quiet := by
  unfold judgePass
  repeat' first
    | with_reducible rfl
    | simp only [quiet_mk, quiet_pu, quiet_ix, quiet_tt, quiet_dg, quiet_tu, quiet_vu, quiet_lock, quiet_passSignal]
    | split

theorem quiet_judgeLost (n : Nat) (s : State) : (judgeLost n s).quiet = s.quiet := by
  unfold judgeLost
  repeat' first
    | with_reducible rfl
    | simp only [quiet_mk, quiet_pu, quiet_ix, quiet_tt, quiet_dg, quiet_tu, quiet_vu, quiet_lock, quiet_setTrain]
    | split

theorem quiet_removeTrailing (n : Nat) (s : State) : (removeTrailing n s).quiet = s.quiet := by
  unfold removeTrailing
  repeat' first
    | with_reducible rfl
    | simp only [quiet_mk, quiet_pu, quiet_ix, quiet_tt, quiet_dg, quiet_tu, quiet_vu, quiet_lock, quiet_hand,
      quiet_setTrain, quiet_ixListChange]
    | split

theorem quiet_trimList (k n : Nat) (s : State) : (trimList k n s).quiet = s.quiet := by
  induction k generalizing s with
  | zero => rfl
  | succ k ih => unfold trimList; repeat' first | with_reducible rfl | simp only [quiet_removeTrailing, ih] | split

theorem quiet_trailing (n : Nat) (s : State) : (trailing n s).quiet = s.quiet := by
  unfold trailing
  repeat' first
    | with_reducible rfl
    | simp only [quiet_mk, quiet_pu, quiet_ix, quiet_tt, quiet_dg, quiet_tu, quiet_vu, quiet_lock, quiet_judgeLost,
      quiet_trimList]
    | split

theorem quiet_claim (n x : Nat) (f : EndName) (aspect : Nat → Aspect) (s : State) :
    (claim n x f aspect s).quiet = s.quiet := by
  unfold claim
  repeat' first
    | with_reducible rfl
    | simp only [quiet_mk, quiet_pu, quiet_ix, quiet_tt, quiet_dg, quiet_tu, quiet_vu, quiet_lock, quiet_report,
      quiet_hand, quiet_setTrain, quiet_ixAppend, quiet_endAmbiguity, quiet_judgePass, quiet_removeTrailing]
    | split

theorem quiet_markAmbiguous (x : Nat) (ns : List Nat) (s : State) : (markAmbiguous x ns s).quiet = s.quiet := by
  unfold markAmbiguous
  repeat' first
    | with_reducible rfl
    | simp only [quiet_mk, quiet_pu, quiet_ix, quiet_tt, quiet_dg, quiet_tu, quiet_vu, quiet_lock, quiet_report,
      quiet_changeHolds]
    | with_reducible refine (quiet_foldState _ (fun a s => ?_) _ _).trans ?_
    | split

theorem quiet_settled (n x : Nat) (s : State) : (settled n x s).quiet = s.quiet := by
  unfold settled
  repeat' first
    | with_reducible rfl
    | simp only [quiet_mk, quiet_pu, quiet_ix, quiet_tt, quiet_dg, quiet_tu, quiet_vu, quiet_lock, quiet_hand,
      quiet_carryPlaced]
    | split

theorem quiet_refind (n x : Nat) (s : State) : (refind n x s).quiet = s.quiet := by
  unfold refind
  repeat' first
    | with_reducible rfl
    | simp only [quiet_mk, quiet_pu, quiet_ix, quiet_tt, quiet_dg, quiet_tu, quiet_vu, quiet_lock, quiet_report,
      quiet_setTrain, quiet_ixAppend, quiet_endAmbiguity, quiet_judgePass, quiet_settled]
    | split

theorem quiet_findLost (x : Nat) (s : State) : (findLost x s).quiet = s.quiet := by
  unfold findLost
  repeat' first
    | with_reducible rfl
    | simp only [quiet_mk, quiet_pu, quiet_ix, quiet_tt, quiet_dg, quiet_tu, quiet_vu, quiet_lock, quiet_report,
      quiet_refind]
    | split

theorem quiet_takeSection (x : Nat) (aspect : Nat → Aspect) (s : State) :
    (takeSection x aspect s).quiet = s.quiet := by
  unfold takeSection
  repeat' first
    | with_reducible rfl
    | simp only [quiet_mk, quiet_pu, quiet_ix, quiet_tt, quiet_dg, quiet_tu, quiet_vu, quiet_lock, quiet_claim,
      quiet_markAmbiguous, quiet_findLost]
    | split

theorem quiet_trackOccupied (x : Nat) (before : List (Nat × Aspect)) (s : State) :
    (trackOccupied x before s).quiet = s.quiet := by
  unfold trackOccupied
  repeat' first
    | with_reducible rfl
    | simp only [quiet_mk, quiet_pu, quiet_ix, quiet_tt, quiet_dg, quiet_tu, quiet_vu, quiet_lock, quiet_setTrain,
      quiet_takeSection]
    | split

theorem quiet_trackClear (x : Nat) (s : State) : (trackClear x s).quiet = s.quiet := by
  unfold trackClear
  repeat' first
    | with_reducible rfl
    | simp only [quiet_mk, quiet_pu, quiet_ix, quiet_tt, quiet_dg, quiet_tu, quiet_vu, quiet_lock,
      quiet_endAmbiguity, quiet_trailing]
    | split

theorem quiet_dropReplacement (n : Nat) (s : State) : (dropReplacement n s).quiet = s.quiet := by
  unfold dropReplacement
  repeat' first
    | with_reducible rfl
    | simp only [quiet_mk, quiet_pu, quiet_ix, quiet_tt, quiet_dg, quiet_tu, quiet_vu, quiet_lock]
    | split

theorem quiet_unplace (n : Nat) (e : TrainEvent) (s : State) : (unplace n e s).quiet = s.quiet := by
  unfold unplace
  repeat' first
    | with_reducible rfl
    | simp only [quiet_mk, quiet_pu, quiet_ix, quiet_tt, quiet_dg, quiet_tu, quiet_vu, quiet_lock, quiet_report,
      quiet_hand, quiet_dropCarried, quiet_withdrawRequests, quiet_ixTrainGone, quiet_changeHolds,
      quiet_dropReplacement]
    | split

theorem quiet_completeReversal (n : Nat) (s : State) : (completeReversal n s).quiet = s.quiet := by
  unfold completeReversal
  repeat' first
    | with_reducible rfl
    | simp only [quiet_mk, quiet_pu, quiet_ix, quiet_tt, quiet_dg, quiet_tu, quiet_vu, quiet_lock, quiet_report,
      quiet_hand, quiet_setTrain, quiet_ixListChange, quiet_changeHolds, quiet_trailing]
    | split

theorem quiet_ttStepChange (n : Nat) (s : State) : (ttStepChange n s).quiet = s.quiet := by
  unfold ttStepChange
  repeat' first
    | with_reducible rfl
    | simp only [quiet_mk, quiet_pu, quiet_ix, quiet_tt, quiet_dg, quiet_tu, quiet_vu, quiet_lock,
      quiet_completeReversal]
    | split

theorem quiet_freezeTracking (s : State) : (freezeTracking s).quiet = s.quiet := by
  unfold freezeTracking
  repeat' first
    | with_reducible rfl
    | simp only [quiet_mk, quiet_pu, quiet_ix, quiet_tt, quiet_dg, quiet_tu, quiet_vu, quiet_lock]
    | split

theorem quiet_resumption (s : State) : (resumption s).quiet = s.quiet := by
  unfold resumption
  repeat' first
    | with_reducible rfl
    | simp only [quiet_mk, quiet_pu, quiet_ix, quiet_tt, quiet_dg, quiet_tu, quiet_vu, quiet_lock, quiet_handAll,
      quiet_setTrain, quiet_refreshSignals, quiet_judgeLost, quiet_trailing]
    | with_reducible refine (quiet_foldState _ (fun a s => ?_) _ _).trans ?_
    | split

theorem quiet_resolveAmbiguity (n x : Nat) (s : State) : (resolveAmbiguity n x s).quiet = s.quiet := by
  unfold resolveAmbiguity
  repeat' first
    | with_reducible rfl
    | simp only [quiet_mk, quiet_pu, quiet_ix, quiet_tt, quiet_dg, quiet_tu, quiet_vu, quiet_lock,
      quiet_endAmbiguity, quiet_claim]
    | split

theorem quiet_onShowTrain (w : ShowRec) (f : Nat → State → State) (h : ∀ n s, (f n s).quiet = s.quiet) (s : State) :
    (onShowTrain w f s).quiet = s.quiet := by
  unfold onShowTrain; repeat' first | with_reducible rfl | simp only [h] | split

theorem quiet_setDemand (v n : Nat) (s : State) : (setDemand v n s).quiet = s.quiet := by
  unfold setDemand
  repeat' first
    | with_reducible rfl
    | simp only [quiet_mk, quiet_pu, quiet_ix, quiet_tt, quiet_dg, quiet_tu, quiet_vu, quiet_lock, quiet_setTrain]
    | split

theorem quiet_setShowWait (v : Bool) (n : Nat) (s : State) : (setShowWait v n s).quiet = s.quiet := by
  unfold setShowWait
  repeat' first
    | with_reducible rfl
    | simp only [quiet_mk, quiet_pu, quiet_ix, quiet_tt, quiet_dg, quiet_tu, quiet_vu, quiet_lock,
      quiet_changeHolds]
    | split

theorem quiet_unwait (s : State) (n : Nat) : (State.unwait s n).quiet = s.quiet := by
  unfold State.unwait
  repeat' first
    | with_reducible rfl
    | simp only [quiet_mk, quiet_pu, quiet_ix, quiet_tt, quiet_dg, quiet_tu, quiet_vu, quiet_lock]
    | split

theorem quiet_changeShow (n : Nat) (st : ShowState) (f : ShowRec → ShowRec) (s : State) :
    (changeShow n st f s).quiet = s.quiet := by
  unfold changeShow
  repeat' first
    | with_reducible rfl
    | simp only [quiet_mk, quiet_pu, quiet_ix, quiet_tt, quiet_dg, quiet_tu, quiet_vu, quiet_lock, quiet_report,
      quiet_setShow]
    | split

theorem quiet_judgeAvailable (n : Nat) (s : State) : (judgeAvailable n s).quiet = s.quiet := by
  unfold judgeAvailable
  repeat' first
    | with_reducible rfl
    | simp only [quiet_mk, quiet_pu, quiet_ix, quiet_tt, quiet_dg, quiet_tu, quiet_vu, quiet_lock, quiet_unwait,
      quiet_changeShow]
    | split

theorem quiet_enterDwell (n : Nat) (w : ShowRec) (s : State) : (enterDwell n w s).quiet = s.quiet := by
  unfold enterDwell
  repeat' first
    | with_reducible rfl
    | simp only [quiet_mk, quiet_pu, quiet_ix, quiet_tt, quiet_dg, quiet_tu, quiet_vu, quiet_lock, quiet_hand,
      quiet_setShow]
    | split

theorem quiet_enterRun (n : Nat) (w : ShowRec) (s : State) : (enterRun n w s).quiet = s.quiet := by
  unfold enterRun
  repeat' first
    | with_reducible rfl
    | simp only [quiet_mk, quiet_pu, quiet_ix, quiet_tt, quiet_dg, quiet_tu, quiet_vu, quiet_lock, quiet_setShow,
      quiet_setDemand, quiet_setShowWait]
    | with_reducible refine (quiet_onShowTrain _ _ (fun n s => ?_) _).trans ?_
    | split

theorem quiet_setStorePending (n : Nat) (v : Bool) (s : State) : (setStorePending n v s).quiet = s.quiet := by
  unfold setStorePending
  repeat' first
    | with_reducible rfl
    | simp only [quiet_mk, quiet_pu, quiet_ix, quiet_tt, quiet_dg, quiet_tu, quiet_vu, quiet_lock, quiet_setShow]
    | split

theorem quiet_storeLeg (n r : Nat) (w : ShowRec) (s : State) : (storeLeg n r w s).quiet = s.quiet := by
  unfold storeLeg
  split
  all_goals
    first
    | exact quiet_of_store ‹_›
    | (simp only [quiet_setStorePending]; exact quiet_of_store ‹_›)
    | (split <;> simp only [quiet_enterRun, quiet_setStorePending] <;> exact quiet_of_store ‹_›)

theorem quiet_enterRouteWait (n r : Nat) (w : ShowRec) (s : State) : (enterRouteWait n r w s).quiet = s.quiet := by
  unfold enterRouteWait
  repeat' first
    | with_reducible rfl
    | simp only [quiet_mk, quiet_pu, quiet_ix, quiet_tt, quiet_dg, quiet_tu, quiet_vu, quiet_lock, quiet_setShow,
      quiet_setDemand, quiet_setShowWait, quiet_storeLeg]
    | with_reducible refine (quiet_onShowTrain _ _ (fun n s => ?_) _).trans ?_
    | split

theorem quiet_beginLeg (n i : Nat) (s : State) : (beginLeg n i s).quiet = s.quiet := by
  unfold beginLeg
  repeat' first
    | with_reducible rfl
    | simp only [quiet_mk, quiet_pu, quiet_ix, quiet_tt, quiet_dg, quiet_tu, quiet_vu, quiet_lock, quiet_report,
      quiet_setShow, quiet_enterDwell, quiet_enterRouteWait]
    | split

theorem quiet_takeDriver (n t : Nat) (s : State) : (takeDriver n t s).quiet = s.quiet := by
  unfold takeDriver
  repeat' first
    | with_reducible rfl
    | simp only [quiet_mk, quiet_pu, quiet_ix, quiet_tt, quiet_dg, quiet_tu, quiet_vu, quiet_lock, quiet_setTrain,
      quiet_withdrawRequests]
    | split

theorem quiet_startShow (n : Nat) (w : ShowRec) (s : State) : (startShow n w s).quiet = s.quiet := by
  unfold startShow
  repeat' first
    | with_reducible rfl
    | simp only [quiet_mk, quiet_pu, quiet_ix, quiet_tt, quiet_dg, quiet_tu, quiet_vu, quiet_lock, quiet_unwait,
      quiet_changeShow, quiet_beginLeg, quiet_takeDriver]
    | with_reducible refine (quiet_onShowTrain _ _ (fun n s => ?_) _).trans ?_
    | split

theorem quiet_visitShow (n : Nat) (s : State) : (visitShow n s).quiet = s.quiet := by
  unfold visitShow
  repeat' first
    | with_reducible rfl
    | simp only [quiet_mk, quiet_pu, quiet_ix, quiet_tt, quiet_dg, quiet_tu, quiet_vu, quiet_lock, quiet_startShow]
    | split

theorem quiet_judgeStart (s : State) : (judgeStart s).quiet = s.quiet := by
  unfold judgeStart
  repeat' first
    | with_reducible rfl
    | simp only [quiet_mk, quiet_pu, quiet_ix, quiet_tt, quiet_dg, quiet_tu, quiet_vu, quiet_lock, quiet_visitShow]
    | with_reducible refine (quiet_foldState _ (fun a s => ?_) _ _).trans ?_
    | split

theorem quiet_returnDriver (n t : Nat) (s : State) : (returnDriver n t s).quiet = s.quiet := by
  unfold returnDriver
  repeat' first
    | with_reducible rfl
    | simp only [quiet_mk, quiet_pu, quiet_ix, quiet_tt, quiet_dg, quiet_tu, quiet_vu, quiet_lock, quiet_hand,
      quiet_changeHolds]
    | split

theorem quiet_completeShow (n : Nat) (w : ShowRec) (s : State) : (completeShow n w s).quiet = s.quiet := by
  unfold completeShow
  repeat' first
    | with_reducible rfl
    | simp only [quiet_mk, quiet_pu, quiet_ix, quiet_tt, quiet_dg, quiet_tu, quiet_vu, quiet_lock, quiet_hand,
      quiet_changeShow, quiet_returnDriver]
    | with_reducible refine (quiet_onShowTrain _ _ (fun n s => ?_) _).trans ?_
    | split

theorem quiet_abortShow (n : Nat) (cause : AbortCause) (s : State) : (abortShow n cause s).quiet = s.quiet := by
  unfold abortShow
  repeat' first
    | with_reducible rfl
    | simp only [quiet_mk, quiet_pu, quiet_ix, quiet_tt, quiet_dg, quiet_tu, quiet_vu, quiet_lock, quiet_report,
      quiet_hand, quiet_setShow, quiet_withdrawRequests, quiet_returnDriver]
    | with_reducible refine (quiet_onShowTrain _ _ (fun n s => ?_) _).trans ?_
    | split

theorem quiet_endLeg (n : Nat) (w : ShowRec) (s : State) : (endLeg n w s).quiet = s.quiet := by
  unfold endLeg
  repeat' first
    | with_reducible rfl
    | simp only [quiet_mk, quiet_pu, quiet_ix, quiet_tt, quiet_dg, quiet_tu, quiet_vu, quiet_lock, quiet_beginLeg,
      quiet_completeShow]
    | split

theorem quiet_endTurn (n : Nat) (w : ShowRec) (s : State) : (endTurn n w s).quiet = s.quiet := by
  unfold endTurn
  simp only [quiet_endLeg, quiet_setShow]
  apply quiet_onShowTrain
  intro t s
  repeat' first | with_reducible rfl | simp only [quiet_completeReversal, quiet_changeHolds] | split

theorem quiet_dwellOver (n : Nat) (s : State) : (dwellOver n s).quiet = s.quiet := by
  unfold dwellOver
  dsimp only
  repeat' first
    | with_reducible rfl
    | (simp only [quiet_setShow, quiet_endLeg, quiet_abortShow]; done)
    | (simp only [quiet_endTurn]; rw [quiet_requestMove ‹_›, quiet_setShow])
    | (rw [quiet_requestMove ‹_›, quiet_setShow])
    | split

theorem quiet_judgeArrival (t n : Nat) (s : State) : (judgeArrival t n s).quiet = s.quiet := by
  unfold judgeArrival
  repeat' first
    | with_reducible rfl
    | simp only [quiet_mk, quiet_pu, quiet_ix, quiet_tt, quiet_dg, quiet_tu, quiet_vu, quiet_lock, quiet_setShow,
      quiet_setDemand, quiet_enterDwell]
    | split

theorem quiet_judgeArrivals (t : Nat) (s : State) : (judgeArrivals t s).quiet = s.quiet := by
  unfold judgeArrivals
  repeat' first
    | with_reducible rfl
    | simp only [quiet_mk, quiet_pu, quiet_ix, quiet_tt, quiet_dg, quiet_tu, quiet_vu, quiet_lock,
      quiet_judgeArrival]
    | with_reducible refine (quiet_foldState _ (fun a s => ?_) _ _).trans ?_
    | split

theorem quiet_showRoute (r : Nat) (st : RouteState) (n : Nat) (s : State) : (showRoute r st n s).quiet = s.quiet := by
  unfold showRoute
  repeat' first
    | with_reducible rfl
    | simp only [quiet_mk, quiet_pu, quiet_ix, quiet_tt, quiet_dg, quiet_tu, quiet_vu, quiet_lock, quiet_setShow,
      quiet_enterRun, quiet_storeLeg, quiet_enterRouteWait]
    | split

theorem quiet_vuRouteChange (r : Nat) (st : RouteState) (s : State) : (vuRouteChange r st s).quiet = s.quiet := by
  unfold vuRouteChange
  repeat' first
    | with_reducible rfl
    | simp only [quiet_mk, quiet_pu, quiet_ix, quiet_tt, quiet_dg, quiet_tu, quiet_vu, quiet_lock, quiet_showRoute]
    | with_reducible refine (quiet_foldState _ (fun a s => ?_) _ _).trans ?_
    | split

theorem quiet_vuRouteFail (r : Nat) (s : State) : (vuRouteFail r s).quiet = s.quiet := by
  unfold vuRouteFail
  repeat' first
    | with_reducible rfl
    | simp only [quiet_mk, quiet_pu, quiet_ix, quiet_tt, quiet_dg, quiet_tu, quiet_vu, quiet_lock, quiet_abortShow]
    | with_reducible refine (quiet_foldState _ (fun a s => ?_) _ _).trans ?_
    | split

theorem quiet_vuRequestDropped (n r : Nat) (cause : RequestDrop) (s : State) :
    (vuRequestDropped n r cause s).quiet = s.quiet := by
  unfold vuRequestDropped
  repeat' first
    | with_reducible rfl
    | simp only [quiet_mk, quiet_pu, quiet_ix, quiet_tt, quiet_dg, quiet_tu, quiet_vu, quiet_lock, quiet_abortShow]
    | split

theorem quiet_vuMoveEnded (n : Nat) (out : MoveOutcome) (s : State) : (vuMoveEnded n out s).quiet = s.quiet := by
  unfold vuMoveEnded
  repeat' first
    | with_reducible rfl
    | simp only [quiet_mk, quiet_pu, quiet_ix, quiet_tt, quiet_dg, quiet_tu, quiet_vu, quiet_lock, quiet_abortShow,
      quiet_endTurn]
    | split

theorem quiet_vuTrainChange (t : Nat) (e : TrainEvent) (s : State) : (vuTrainChange t e s).quiet = s.quiet := by
  unfold vuTrainChange
  repeat' first
    | with_reducible rfl
    | simp only [quiet_mk, quiet_pu, quiet_ix, quiet_tt, quiet_dg, quiet_tu, quiet_vu, quiet_lock, quiet_hand,
      quiet_judgeAvailable, quiet_abortShow]
    | with_reducible refine (quiet_foldState _ (fun a s => ?_) _ _).trans ?_
    | split

theorem quiet_vuPassedStop (t : Nat) (s : State) : (vuPassedStop t s).quiet = s.quiet := by
  unfold vuPassedStop
  repeat' first
    | with_reducible rfl
    | simp only [quiet_mk, quiet_pu, quiet_ix, quiet_tt, quiet_dg, quiet_tu, quiet_vu, quiet_lock, quiet_abortShow]
    | split

theorem quiet_vuStepChange (t : Nat) (s : State) : (vuStepChange t s).quiet = s.quiet := by
  unfold vuStepChange
  repeat' first
    | with_reducible rfl
    | simp only [quiet_mk, quiet_pu, quiet_ix, quiet_tt, quiet_dg, quiet_tu, quiet_vu, quiet_lock, quiet_hand,
      quiet_setTrain, quiet_judgeArrivals]
    | split

theorem quiet_showsStop (s : State) : (showsStop s).quiet = s.quiet := by
  unfold showsStop
  repeat' first
    | with_reducible rfl
    | simp only [quiet_mk, quiet_pu, quiet_ix, quiet_tt, quiet_dg, quiet_tu, quiet_vu, quiet_lock, quiet_abortShow]
    | with_reducible refine (quiet_foldState _ (fun a s => ?_) _ _).trans ?_
    | split

theorem quiet_conditionChanged (s : State) : (conditionChanged s).quiet = s.quiet := by
  unfold conditionChanged
  repeat' first
    | with_reducible rfl
    | simp only [quiet_mk, quiet_pu, quiet_ix, quiet_tt, quiet_dg, quiet_tu, quiet_vu, quiet_lock,
      quiet_considerPulse, quiet_reexamine, quiet_freezeTracking]
    | split

theorem quiet_trackerStop (s : State) : (trackerStop s).quiet = s.quiet := by
  unfold trackerStop
  repeat' first
    | with_reducible rfl
    | simp only [quiet_mk, quiet_pu, quiet_ix, quiet_tt, quiet_dg, quiet_tu, quiet_vu, quiet_lock]
    | split

theorem quiet_handle (n : Notice) (s : State) : (handle n s).quiet = s.quiet := by
  unfold handle
  repeat' first
    | with_reducible rfl
    | simp only [quiet_mk, quiet_pu, quiet_ix, quiet_tt, quiet_dg, quiet_tu, quiet_vu, quiet_lock, quiet_hand,
      quiet_pointsStop, quiet_refreshSignals, quiet_turntableStop, quiet_reexamine, quiet_judgeDwell, quiet_ixClear,
      quiet_ixPoint, quiet_ixBridge, quiet_ixMoveEnded, quiet_routesStop, quiet_placement, quiet_ttRequestStarted,
      quiet_ttRequestDropped, quiet_ttRouteChange, quiet_trackOccupied, quiet_trackClear, quiet_ttStepChange,
      quiet_resumption, quiet_judgeStart, quiet_dwellOver, quiet_judgeArrivals, quiet_vuRouteChange,
      quiet_vuRouteFail, quiet_vuRequestDropped, quiet_vuMoveEnded, quiet_vuTrainChange, quiet_vuPassedStop,
      quiet_vuStepChange, quiet_showsStop, quiet_conditionChanged, quiet_trackerStop]
    | with_reducible refine (quiet_foldState _ (fun a s => ?_) _ _).trans ?_
    | split

theorem quiet_settleStep (s : State) : (settleStep s).quiet = s.quiet := by
  unfold settleStep
  repeat' first
    | with_reducible rfl
    | simp only [quiet_mk, quiet_pu, quiet_ix, quiet_tt, quiet_dg, quiet_tu, quiet_vu, quiet_lock, quiet_handle]
    | split

theorem quiet_settleFrom (k : Nat) (s : State) : (settleFrom k s).quiet = s.quiet := by
  induction k generalizing s with
  | zero => rfl
  | succ k ih => unfold settleFrom; repeat' first | with_reducible rfl | simp only [quiet_settleStep, ih] | split

theorem quiet_settle (s : State) : (settle s).quiet = s.quiet := by
  unfold settle
  repeat' first
    | with_reducible rfl
    | simp only [quiet_mk, quiet_pu, quiet_ix, quiet_tt, quiet_dg, quiet_tu, quiet_vu, quiet_lock, quiet_settleFrom]
    | split


/-- The frame of an arrival's hand-overs and of the settling of the aspects. -/
theorem quiet_workOut (s t : State) : (workOut s t).quiet = t.quiet := by
  simp only [workOut, quiet_settleSignals, quiet_settle]

end Sys2Proof.Machine
end

