-- ==== Sys2Proof/Laws/Shapes.lean ====
section
/-! SUPPORT. What the shared operations come to, written out: a fold over states as a fold of the library, the words of a
line as characters, and the carried train's notices with their updates spelled. -/

namespace Sys2Proof.Machine

open Sys2Proof

/-- `foldState` is the left fold of the library. -/
theorem foldState_eq_foldl {α : Type} (f : α → State → State) (l : List α) (s : State) :
    foldState f l s = l.foldl (fun u a => f a u) s := by
  induction l generalizing s with
  | nil => rfl
  | cons a l ih => rw [foldState, ih, List.foldl_cons]

/-- Words after the first stand each behind a space. -/
theorem joinWords_cons (w : Text) (ws : List Text) : joinWords (w :: ws) = w ++ (ws.map fun a => ' ' :: a).flatten := by
  induction ws generalizing w with
  | nil => simp [joinWords]
  | cons a ws ih => simp only [joinWords, ih, List.map_cons, List.flatten_cons, List.cons_append]

/-- A train that is carried loses ON-TURN and is carried no longer; any other changes nothing (R131). -/
theorem dropCarried_eq (n : Nat) (s : State) : dropCarried n s =
    if s.tu.carried = some n then
      { s.setTrain n (fun t => { t with onTurn := false }) with tu := { s.tu with carried := none } }.hand (.holdsChange n)
    else s := by
  unfold dropCarried releaseCarried
  split
  · rename_i h; rw [h]; rfl
  · rfl

/-- A train placed in the bridge section while the bridge turns takes ON-TURN and is carried (R131). -/
theorem carryPlaced_eq (n x : Nat) (s : State) : carryPlaced n x s =
    if s.tu.ten = true ∧ s.bridgeSection = some x then
      { s.setTrain n (fun t => { t with onTurn := true }) with tu := { s.tu with carried := some n } }.hand (.holdsChange n)
    else s := rfl

/-- The end of an ambiguity, as a fold over the trains whose ambiguity section it is (R96). -/
theorem endAmbiguity_eq (x : Nat) (s : State) : endAmbiguity x s =
    ((s.tt.trains.filter fun t => t.2.ambiguity == some x).map fun t => t.1).foldl
      (fun u n => changeHolds n (fun t => { t with ambiguity := none }) u) s := foldState_eq_foldl _ _ _

end Sys2Proof.Machine
end

