-- ==== Sys2Proof/Laws/State.lean ====
section
/-! SUPPORT. The named updates of State, field by field: what each writes and what it leaves. -/

namespace Sys2Proof.Machine

open Sys2Proof

variable (s : State)

@[simp] theorem reach_powered (t : Nat) : (s.reach t).powered = s.powered := rfl
@[simp] theorem reach_pending (t : Nat) : (s.reach t).pending = s.pending := rfl
@[simp] theorem reach_now (t : Nat) : (s.reach t).now = max s.now t := rfl
@[simp] theorem reach_agenda (t : Nat) : (s.reach t).agenda = s.agenda := rfl
@[simp] theorem reach_freeCount (t : Nat) : (s.reach t).freeCount = s.freeCount := rfl
@[simp] theorem reach_mode (t : Nat) : (s.reach t).mode = s.mode := rfl
@[simp] theorem reach_sections (t : Nat) : (s.reach t).sections = s.sections := rfl
@[simp] theorem reach_fc (t : Nat) : (s.reach t).fc = s.fc := rfl
@[simp] theorem reach_pu (t : Nat) : (s.reach t).pu = s.pu := rfl
@[simp] theorem reach_ix (t : Nat) : (s.reach t).ix = s.ix := rfl
@[simp] theorem reach_tt (t : Nat) : (s.reach t).tt = s.tt := rfl
@[simp] theorem reach_dg (t : Nat) : (s.reach t).dg = s.dg := rfl
@[simp] theorem reach_tu (t : Nat) : (s.reach t).tu = s.tu := rfl
@[simp] theorem reach_vu (t : Nat) : (s.reach t).vu = s.vu := rfl
@[simp] theorem reach_ss (t : Nat) : (s.reach t).ss = s.ss := rfl
@[simp] theorem reach_hl (t : Nat) : (s.reach t).hl = s.hl := rfl

@[simp] theorem expire_powered (t : Timer) : (s.expire t).powered = s.powered := by cases t <;> rfl
@[simp] theorem expire_pending (t : Timer) : (s.expire t).pending = s.pending := by cases t <;> rfl
@[simp] theorem expire_agenda (t : Timer) : (s.expire t).agenda = s.agenda := by cases t <;> rfl
@[simp] theorem expire_freeCount (t : Timer) : (s.expire t).freeCount = s.freeCount := by cases t <;> rfl
@[simp] theorem expire_mode (t : Timer) : (s.expire t).mode = s.mode := by cases t <;> rfl
@[simp] theorem expire_sections (t : Timer) : (s.expire t).sections = s.sections := by cases t <;> rfl
@[simp] theorem expire_fc (t : Timer) : (s.expire t).fc = s.fc := by cases t <;> rfl
@[simp] theorem expire_pu (t : Timer) : (s.expire t).pu = s.pu := by cases t <;> rfl
@[simp] theorem expire_ix (t : Timer) : (s.expire t).ix = s.ix := by cases t <;> rfl
@[simp] theorem expire_tt (t : Timer) : (s.expire t).tt = s.tt := by cases t <;> rfl
@[simp] theorem expire_dg (t : Timer) : (s.expire t).dg = s.dg := by cases t <;> rfl
@[simp] theorem expire_tu (t : Timer) : (s.expire t).tu = s.tu := by cases t <;> rfl
@[simp] theorem expire_vu (t : Timer) : (s.expire t).vu = s.vu := by cases t <;> rfl
@[simp] theorem expire_ss (t : Timer) : (s.expire t).ss = s.ss := by cases t <;> rfl
@[simp] theorem expire_hl (t : Timer) : (s.expire t).hl = s.hl := by cases t <;> rfl

@[simp] theorem report_powered (r : Report) : (s.report r).powered = s.powered := rfl
@[simp] theorem report_pending (r : Report) : (s.report r).pending = s.pending := rfl
@[simp] theorem report_now (r : Report) : (s.report r).now = s.now := rfl
@[simp] theorem report_agenda (r : Report) : (s.report r).agenda = s.agenda := rfl
@[simp] theorem report_freeCount (r : Report) : (s.report r).freeCount = s.freeCount := rfl
@[simp] theorem report_mode (r : Report) : (s.report r).mode = s.mode := rfl
@[simp] theorem report_sections (r : Report) : (s.report r).sections = s.sections := rfl
@[simp] theorem report_fc (r : Report) : (s.report r).fc = s.fc := rfl
@[simp] theorem report_pu (r : Report) : (s.report r).pu = s.pu := rfl
@[simp] theorem report_ix (r : Report) : (s.report r).ix = s.ix := rfl
@[simp] theorem report_tt (r : Report) : (s.report r).tt = s.tt := rfl
@[simp] theorem report_dg (r : Report) : (s.report r).dg = s.dg := rfl
@[simp] theorem report_tu (r : Report) : (s.report r).tu = s.tu := rfl
@[simp] theorem report_vu (r : Report) : (s.report r).vu = s.vu := rfl
@[simp] theorem report_ss (r : Report) : (s.report r).ss = s.ss := rfl
@[simp] theorem report_hl (r : Report) : (s.report r).hl = s.hl.report r := rfl

@[simp] theorem hand_powered (n : Notice) : (s.hand n).powered = s.powered := rfl
@[simp] theorem hand_pending (n : Notice) : (s.hand n).pending = s.pending := rfl
@[simp] theorem hand_now (n : Notice) : (s.hand n).now = s.now := rfl
@[simp] theorem hand_agenda (n : Notice) : (s.hand n).agenda = s.agenda ++ [n] := rfl
@[simp] theorem hand_freeCount (n : Notice) : (s.hand n).freeCount = s.freeCount := rfl
@[simp] theorem hand_mode (n : Notice) : (s.hand n).mode = s.mode := rfl
@[simp] theorem hand_sections (n : Notice) : (s.hand n).sections = s.sections := rfl
@[simp] theorem hand_fc (n : Notice) : (s.hand n).fc = s.fc := rfl
@[simp] theorem hand_pu (n : Notice) : (s.hand n).pu = s.pu := rfl
@[simp] theorem hand_ix (n : Notice) : (s.hand n).ix = s.ix := rfl
@[simp] theorem hand_tt (n : Notice) : (s.hand n).tt = s.tt := rfl
@[simp] theorem hand_dg (n : Notice) : (s.hand n).dg = s.dg := rfl
@[simp] theorem hand_tu (n : Notice) : (s.hand n).tu = s.tu := rfl
@[simp] theorem hand_vu (n : Notice) : (s.hand n).vu = s.vu := rfl
@[simp] theorem hand_ss (n : Notice) : (s.hand n).ss = s.ss := rfl
@[simp] theorem hand_hl (n : Notice) : (s.hand n).hl = s.hl := rfl

@[simp] theorem handAll_powered (ns : List Notice) : (s.handAll ns).powered = s.powered := rfl
@[simp] theorem handAll_pending (ns : List Notice) : (s.handAll ns).pending = s.pending := rfl
@[simp] theorem handAll_now (ns : List Notice) : (s.handAll ns).now = s.now := rfl
@[simp] theorem handAll_agenda (ns : List Notice) : (s.handAll ns).agenda = s.agenda ++ ns := rfl
@[simp] theorem handAll_freeCount (ns : List Notice) : (s.handAll ns).freeCount = s.freeCount := rfl
@[simp] theorem handAll_mode (ns : List Notice) : (s.handAll ns).mode = s.mode := rfl
@[simp] theorem handAll_sections (ns : List Notice) : (s.handAll ns).sections = s.sections := rfl
@[simp] theorem handAll_fc (ns : List Notice) : (s.handAll ns).fc = s.fc := rfl
@[simp] theorem handAll_pu (ns : List Notice) : (s.handAll ns).pu = s.pu := rfl
@[simp] theorem handAll_ix (ns : List Notice) : (s.handAll ns).ix = s.ix := rfl
@[simp] theorem handAll_tt (ns : List Notice) : (s.handAll ns).tt = s.tt := rfl
@[simp] theorem handAll_dg (ns : List Notice) : (s.handAll ns).dg = s.dg := rfl
@[simp] theorem handAll_tu (ns : List Notice) : (s.handAll ns).tu = s.tu := rfl
@[simp] theorem handAll_vu (ns : List Notice) : (s.handAll ns).vu = s.vu := rfl
@[simp] theorem handAll_ss (ns : List Notice) : (s.handAll ns).ss = s.ss := rfl
@[simp] theorem handAll_hl (ns : List Notice) : (s.handAll ns).hl = s.hl := rfl

@[simp] theorem askReexamine_powered : (s.askReexamine).powered = s.powered := rfl
@[simp] theorem askReexamine_pending : (s.askReexamine).pending = s.pending := rfl
@[simp] theorem askReexamine_now : (s.askReexamine).now = s.now := rfl
@[simp] theorem askReexamine_agenda : (s.askReexamine).agenda = s.agenda ++ [.reexamine] := rfl
@[simp] theorem askReexamine_freeCount : (s.askReexamine).freeCount = s.freeCount := rfl
@[simp] theorem askReexamine_mode : (s.askReexamine).mode = s.mode := rfl
@[simp] theorem askReexamine_sections : (s.askReexamine).sections = s.sections := rfl
@[simp] theorem askReexamine_fc : (s.askReexamine).fc = s.fc := rfl
@[simp] theorem askReexamine_pu : (s.askReexamine).pu = s.pu := rfl
@[simp] theorem askReexamine_ix : (s.askReexamine).ix = s.ix := rfl
@[simp] theorem askReexamine_tt : (s.askReexamine).tt = s.tt := rfl
@[simp] theorem askReexamine_dg : (s.askReexamine).dg = s.dg := rfl
@[simp] theorem askReexamine_tu : (s.askReexamine).tu = s.tu := rfl
@[simp] theorem askReexamine_vu : (s.askReexamine).vu = s.vu := rfl
@[simp] theorem askReexamine_ss : (s.askReexamine).ss = s.ss := rfl
@[simp] theorem askReexamine_hl : (s.askReexamine).hl = s.hl := rfl

@[simp] theorem setSection_powered (x : Nat) (f : SectionRec → SectionRec) :
    (s.setSection x f).powered = s.powered := rfl
@[simp] theorem setSection_pending (x : Nat) (f : SectionRec → SectionRec) :
    (s.setSection x f).pending = s.pending := rfl
@[simp] theorem setSection_now (x : Nat) (f : SectionRec → SectionRec) : (s.setSection x f).now = s.now := rfl
@[simp] theorem setSection_agenda (x : Nat) (f : SectionRec → SectionRec) :
    (s.setSection x f).agenda = s.agenda := rfl
@[simp] theorem setSection_freeCount (x : Nat) (f : SectionRec → SectionRec) :
    (s.setSection x f).freeCount = s.freeCount := rfl
@[simp] theorem setSection_mode (x : Nat) (f : SectionRec → SectionRec) : (s.setSection x f).mode = s.mode := rfl
@[simp] theorem setSection_sections (x : Nat) (f : SectionRec → SectionRec) :
    (s.setSection x f).sections = Table.update s.sections x f := rfl
@[simp] theorem setSection_fc (x : Nat) (f : SectionRec → SectionRec) : (s.setSection x f).fc = s.fc := rfl
@[simp] theorem setSection_pu (x : Nat) (f : SectionRec → SectionRec) : (s.setSection x f).pu = s.pu := rfl
@[simp] theorem setSection_ix (x : Nat) (f : SectionRec → SectionRec) : (s.setSection x f).ix = s.ix := rfl
@[simp] theorem setSection_tt (x : Nat) (f : SectionRec → SectionRec) : (s.setSection x f).tt = s.tt := rfl
@[simp] theorem setSection_dg (x : Nat) (f : SectionRec → SectionRec) : (s.setSection x f).dg = s.dg := rfl
@[simp] theorem setSection_tu (x : Nat) (f : SectionRec → SectionRec) : (s.setSection x f).tu = s.tu := rfl
@[simp] theorem setSection_vu (x : Nat) (f : SectionRec → SectionRec) : (s.setSection x f).vu = s.vu := rfl
@[simp] theorem setSection_ss (x : Nat) (f : SectionRec → SectionRec) : (s.setSection x f).ss = s.ss := rfl
@[simp] theorem setSection_hl (x : Nat) (f : SectionRec → SectionRec) : (s.setSection x f).hl = s.hl := rfl

@[simp] theorem setPoint_powered (p : Nat) (f : PointRec → PointRec) : (s.setPoint p f).powered = s.powered := rfl
@[simp] theorem setPoint_pending (p : Nat) (f : PointRec → PointRec) : (s.setPoint p f).pending = s.pending := rfl
@[simp] theorem setPoint_now (p : Nat) (f : PointRec → PointRec) : (s.setPoint p f).now = s.now := rfl
@[simp] theorem setPoint_agenda (p : Nat) (f : PointRec → PointRec) : (s.setPoint p f).agenda = s.agenda := rfl
@[simp] theorem setPoint_freeCount (p : Nat) (f : PointRec → PointRec) :
    (s.setPoint p f).freeCount = s.freeCount := rfl
@[simp] theorem setPoint_mode (p : Nat) (f : PointRec → PointRec) : (s.setPoint p f).mode = s.mode := rfl
@[simp] theorem setPoint_sections (p : Nat) (f : PointRec → PointRec) : (s.setPoint p f).sections = s.sections := rfl
@[simp] theorem setPoint_fc (p : Nat) (f : PointRec → PointRec) : (s.setPoint p f).fc = s.fc := rfl
@[simp] theorem setPoint_pu (p : Nat) (f : PointRec → PointRec) :
    (s.setPoint p f).pu = { s.pu with points := Table.update s.pu.points p f } := rfl
@[simp] theorem setPoint_ix (p : Nat) (f : PointRec → PointRec) : (s.setPoint p f).ix = s.ix := rfl
@[simp] theorem setPoint_tt (p : Nat) (f : PointRec → PointRec) : (s.setPoint p f).tt = s.tt := rfl
@[simp] theorem setPoint_dg (p : Nat) (f : PointRec → PointRec) : (s.setPoint p f).dg = s.dg := rfl
@[simp] theorem setPoint_tu (p : Nat) (f : PointRec → PointRec) : (s.setPoint p f).tu = s.tu := rfl
@[simp] theorem setPoint_vu (p : Nat) (f : PointRec → PointRec) : (s.setPoint p f).vu = s.vu := rfl
@[simp] theorem setPoint_ss (p : Nat) (f : PointRec → PointRec) : (s.setPoint p f).ss = s.ss := rfl
@[simp] theorem setPoint_hl (p : Nat) (f : PointRec → PointRec) : (s.setPoint p f).hl = s.hl := rfl

@[simp] theorem setRoute_powered (r : Nat) (f : RouteRec → RouteRec) : (s.setRoute r f).powered = s.powered := rfl
@[simp] theorem setRoute_pending (r : Nat) (f : RouteRec → RouteRec) : (s.setRoute r f).pending = s.pending := rfl
@[simp] theorem setRoute_now (r : Nat) (f : RouteRec → RouteRec) : (s.setRoute r f).now = s.now := rfl
@[simp] theorem setRoute_agenda (r : Nat) (f : RouteRec → RouteRec) : (s.setRoute r f).agenda = s.agenda := rfl
@[simp] theorem setRoute_freeCount (r : Nat) (f : RouteRec → RouteRec) :
    (s.setRoute r f).freeCount = s.freeCount := rfl
@[simp] theorem setRoute_mode (r : Nat) (f : RouteRec → RouteRec) : (s.setRoute r f).mode = s.mode := rfl
@[simp] theorem setRoute_sections (r : Nat) (f : RouteRec → RouteRec) : (s.setRoute r f).sections = s.sections := rfl
@[simp] theorem setRoute_fc (r : Nat) (f : RouteRec → RouteRec) : (s.setRoute r f).fc = s.fc := rfl
@[simp] theorem setRoute_pu (r : Nat) (f : RouteRec → RouteRec) : (s.setRoute r f).pu = s.pu := rfl
@[simp] theorem setRoute_ix (r : Nat) (f : RouteRec → RouteRec) :
    (s.setRoute r f).ix = { s.ix with routes := Table.update s.ix.routes r f } := rfl
@[simp] theorem setRoute_tt (r : Nat) (f : RouteRec → RouteRec) : (s.setRoute r f).tt = s.tt := rfl
@[simp] theorem setRoute_dg (r : Nat) (f : RouteRec → RouteRec) : (s.setRoute r f).dg = s.dg := rfl
@[simp] theorem setRoute_tu (r : Nat) (f : RouteRec → RouteRec) : (s.setRoute r f).tu = s.tu := rfl
@[simp] theorem setRoute_vu (r : Nat) (f : RouteRec → RouteRec) : (s.setRoute r f).vu = s.vu := rfl
@[simp] theorem setRoute_ss (r : Nat) (f : RouteRec → RouteRec) : (s.setRoute r f).ss = s.ss := rfl
@[simp] theorem setRoute_hl (r : Nat) (f : RouteRec → RouteRec) : (s.setRoute r f).hl = s.hl := rfl

@[simp] theorem setTrain_powered (n : Nat) (f : TrainRec → TrainRec) : (s.setTrain n f).powered = s.powered := rfl
@[simp] theorem setTrain_pending (n : Nat) (f : TrainRec → TrainRec) : (s.setTrain n f).pending = s.pending := rfl
@[simp] theorem setTrain_now (n : Nat) (f : TrainRec → TrainRec) : (s.setTrain n f).now = s.now := rfl
@[simp] theorem setTrain_agenda (n : Nat) (f : TrainRec → TrainRec) : (s.setTrain n f).agenda = s.agenda := rfl
@[simp] theorem setTrain_freeCount (n : Nat) (f : TrainRec → TrainRec) :
    (s.setTrain n f).freeCount = s.freeCount := rfl
@[simp] theorem setTrain_mode (n : Nat) (f : TrainRec → TrainRec) : (s.setTrain n f).mode = s.mode := rfl
@[simp] theorem setTrain_sections (n : Nat) (f : TrainRec → TrainRec) : (s.setTrain n f).sections = s.sections := rfl
@[simp] theorem setTrain_fc (n : Nat) (f : TrainRec → TrainRec) : (s.setTrain n f).fc = s.fc := rfl
@[simp] theorem setTrain_pu (n : Nat) (f : TrainRec → TrainRec) : (s.setTrain n f).pu = s.pu := rfl
@[simp] theorem setTrain_ix (n : Nat) (f : TrainRec → TrainRec) : (s.setTrain n f).ix = s.ix := rfl
@[simp] theorem setTrain_tt (n : Nat) (f : TrainRec → TrainRec) :
    (s.setTrain n f).tt = { s.tt with trains := Table.update s.tt.trains n f } := rfl
@[simp] theorem setTrain_dg (n : Nat) (f : TrainRec → TrainRec) : (s.setTrain n f).dg = s.dg := rfl
@[simp] theorem setTrain_tu (n : Nat) (f : TrainRec → TrainRec) : (s.setTrain n f).tu = s.tu := rfl
@[simp] theorem setTrain_vu (n : Nat) (f : TrainRec → TrainRec) : (s.setTrain n f).vu = s.vu := rfl
@[simp] theorem setTrain_ss (n : Nat) (f : TrainRec → TrainRec) : (s.setTrain n f).ss = s.ss := rfl
@[simp] theorem setTrain_hl (n : Nat) (f : TrainRec → TrainRec) : (s.setTrain n f).hl = s.hl := rfl

@[simp] theorem setShow_powered (n : Nat) (f : ShowRec → ShowRec) : (s.setShow n f).powered = s.powered := rfl
@[simp] theorem setShow_pending (n : Nat) (f : ShowRec → ShowRec) : (s.setShow n f).pending = s.pending := rfl
@[simp] theorem setShow_now (n : Nat) (f : ShowRec → ShowRec) : (s.setShow n f).now = s.now := rfl
@[simp] theorem setShow_agenda (n : Nat) (f : ShowRec → ShowRec) : (s.setShow n f).agenda = s.agenda := rfl
@[simp] theorem setShow_freeCount (n : Nat) (f : ShowRec → ShowRec) : (s.setShow n f).freeCount = s.freeCount := rfl
@[simp] theorem setShow_mode (n : Nat) (f : ShowRec → ShowRec) : (s.setShow n f).mode = s.mode := rfl
@[simp] theorem setShow_sections (n : Nat) (f : ShowRec → ShowRec) : (s.setShow n f).sections = s.sections := rfl
@[simp] theorem setShow_fc (n : Nat) (f : ShowRec → ShowRec) : (s.setShow n f).fc = s.fc := rfl
@[simp] theorem setShow_pu (n : Nat) (f : ShowRec → ShowRec) : (s.setShow n f).pu = s.pu := rfl
@[simp] theorem setShow_ix (n : Nat) (f : ShowRec → ShowRec) : (s.setShow n f).ix = s.ix := rfl
@[simp] theorem setShow_tt (n : Nat) (f : ShowRec → ShowRec) : (s.setShow n f).tt = s.tt := rfl
@[simp] theorem setShow_dg (n : Nat) (f : ShowRec → ShowRec) : (s.setShow n f).dg = s.dg := rfl
@[simp] theorem setShow_tu (n : Nat) (f : ShowRec → ShowRec) : (s.setShow n f).tu = s.tu := rfl
@[simp] theorem setShow_vu (n : Nat) (f : ShowRec → ShowRec) :
    (s.setShow n f).vu = { s.vu with shows := Table.update s.vu.shows n f } := rfl
@[simp] theorem setShow_ss (n : Nat) (f : ShowRec → ShowRec) : (s.setShow n f).ss = s.ss := rfl
@[simp] theorem setShow_hl (n : Nat) (f : ShowRec → ShowRec) : (s.setShow n f).hl = s.hl := rfl

@[simp] theorem setTurn_powered (f : Turntable → Turntable) : (s.setTurn f).powered = s.powered := rfl
@[simp] theorem setTurn_pending (f : Turntable → Turntable) : (s.setTurn f).pending = s.pending := rfl
@[simp] theorem setTurn_now (f : Turntable → Turntable) : (s.setTurn f).now = s.now := rfl
@[simp] theorem setTurn_agenda (f : Turntable → Turntable) : (s.setTurn f).agenda = s.agenda := rfl
@[simp] theorem setTurn_freeCount (f : Turntable → Turntable) : (s.setTurn f).freeCount = s.freeCount := rfl
@[simp] theorem setTurn_mode (f : Turntable → Turntable) : (s.setTurn f).mode = s.mode := rfl
@[simp] theorem setTurn_sections (f : Turntable → Turntable) : (s.setTurn f).sections = s.sections := rfl
@[simp] theorem setTurn_fc (f : Turntable → Turntable) : (s.setTurn f).fc = s.fc := rfl
@[simp] theorem setTurn_pu (f : Turntable → Turntable) : (s.setTurn f).pu = s.pu := rfl
@[simp] theorem setTurn_ix (f : Turntable → Turntable) : (s.setTurn f).ix = s.ix := rfl
@[simp] theorem setTurn_tt (f : Turntable → Turntable) : (s.setTurn f).tt = s.tt := rfl
@[simp] theorem setTurn_dg (f : Turntable → Turntable) : (s.setTurn f).dg = s.dg := rfl
@[simp] theorem setTurn_tu (f : Turntable → Turntable) : (s.setTurn f).tu = f s.tu := rfl
@[simp] theorem setTurn_vu (f : Turntable → Turntable) : (s.setTurn f).vu = s.vu := rfl
@[simp] theorem setTurn_ss (f : Turntable → Turntable) : (s.setTurn f).ss = s.ss := rfl
@[simp] theorem setTurn_hl (f : Turntable → Turntable) : (s.setTurn f).hl = s.hl := rfl

@[simp] theorem setChain_powered (f : Chain → Chain) : (s.setChain f).powered = s.powered := rfl
@[simp] theorem setChain_pending (f : Chain → Chain) : (s.setChain f).pending = s.pending := rfl
@[simp] theorem setChain_now (f : Chain → Chain) : (s.setChain f).now = s.now := rfl
@[simp] theorem setChain_agenda (f : Chain → Chain) : (s.setChain f).agenda = s.agenda := rfl
@[simp] theorem setChain_freeCount (f : Chain → Chain) : (s.setChain f).freeCount = s.freeCount := rfl
@[simp] theorem setChain_mode (f : Chain → Chain) : (s.setChain f).mode = s.mode := rfl
@[simp] theorem setChain_sections (f : Chain → Chain) : (s.setChain f).sections = s.sections := rfl
@[simp] theorem setChain_fc (f : Chain → Chain) : (s.setChain f).fc = f s.fc := rfl
@[simp] theorem setChain_pu (f : Chain → Chain) : (s.setChain f).pu = s.pu := rfl
@[simp] theorem setChain_ix (f : Chain → Chain) : (s.setChain f).ix = s.ix := rfl
@[simp] theorem setChain_tt (f : Chain → Chain) : (s.setChain f).tt = s.tt := rfl
@[simp] theorem setChain_dg (f : Chain → Chain) : (s.setChain f).dg = s.dg := rfl
@[simp] theorem setChain_tu (f : Chain → Chain) : (s.setChain f).tu = s.tu := rfl
@[simp] theorem setChain_vu (f : Chain → Chain) : (s.setChain f).vu = s.vu := rfl
@[simp] theorem setChain_ss (f : Chain → Chain) : (s.setChain f).ss = s.ss := rfl
@[simp] theorem setChain_hl (f : Chain → Chain) : (s.setChain f).hl = s.hl := rfl

@[simp] theorem setModule_powered (m : Nat) (f : ModuleRec → ModuleRec) : (s.setModule m f).powered = s.powered := rfl
@[simp] theorem setModule_pending (m : Nat) (f : ModuleRec → ModuleRec) : (s.setModule m f).pending = s.pending := rfl
@[simp] theorem setModule_now (m : Nat) (f : ModuleRec → ModuleRec) : (s.setModule m f).now = s.now := rfl
@[simp] theorem setModule_agenda (m : Nat) (f : ModuleRec → ModuleRec) : (s.setModule m f).agenda = s.agenda := rfl
@[simp] theorem setModule_freeCount (m : Nat) (f : ModuleRec → ModuleRec) :
    (s.setModule m f).freeCount = s.freeCount := rfl
@[simp] theorem setModule_mode (m : Nat) (f : ModuleRec → ModuleRec) : (s.setModule m f).mode = s.mode := rfl
@[simp] theorem setModule_sections (m : Nat) (f : ModuleRec → ModuleRec) :
    (s.setModule m f).sections = s.sections := rfl
@[simp] theorem setModule_fc (m : Nat) (f : ModuleRec → ModuleRec) :
    (s.setModule m f).fc = { s.fc with modules := Table.update s.fc.modules m f } := rfl
@[simp] theorem setModule_pu (m : Nat) (f : ModuleRec → ModuleRec) : (s.setModule m f).pu = s.pu := rfl
@[simp] theorem setModule_ix (m : Nat) (f : ModuleRec → ModuleRec) : (s.setModule m f).ix = s.ix := rfl
@[simp] theorem setModule_tt (m : Nat) (f : ModuleRec → ModuleRec) : (s.setModule m f).tt = s.tt := rfl
@[simp] theorem setModule_dg (m : Nat) (f : ModuleRec → ModuleRec) : (s.setModule m f).dg = s.dg := rfl
@[simp] theorem setModule_tu (m : Nat) (f : ModuleRec → ModuleRec) : (s.setModule m f).tu = s.tu := rfl
@[simp] theorem setModule_vu (m : Nat) (f : ModuleRec → ModuleRec) : (s.setModule m f).vu = s.vu := rfl
@[simp] theorem setModule_ss (m : Nat) (f : ModuleRec → ModuleRec) : (s.setModule m f).ss = s.ss := rfl
@[simp] theorem setModule_hl (m : Nat) (f : ModuleRec → ModuleRec) : (s.setModule m f).hl = s.hl := rfl

@[simp] theorem setLive_powered (k : Nat) (f : TerminalLive → TerminalLive) :
    (s.setLive k f).powered = s.powered := rfl
@[simp] theorem setLive_pending (k : Nat) (f : TerminalLive → TerminalLive) :
    (s.setLive k f).pending = s.pending := rfl
@[simp] theorem setLive_now (k : Nat) (f : TerminalLive → TerminalLive) : (s.setLive k f).now = s.now := rfl
@[simp] theorem setLive_agenda (k : Nat) (f : TerminalLive → TerminalLive) : (s.setLive k f).agenda = s.agenda := rfl
@[simp] theorem setLive_freeCount (k : Nat) (f : TerminalLive → TerminalLive) :
    (s.setLive k f).freeCount = s.freeCount := rfl
@[simp] theorem setLive_mode (k : Nat) (f : TerminalLive → TerminalLive) : (s.setLive k f).mode = s.mode := rfl
@[simp] theorem setLive_sections (k : Nat) (f : TerminalLive → TerminalLive) :
    (s.setLive k f).sections = s.sections := rfl
@[simp] theorem setLive_fc (k : Nat) (f : TerminalLive → TerminalLive) :
    (s.setLive k f).fc = { s.fc with live := Table.put s.fc.live k (f ((Table.find s.fc.live k).getD {})) } := rfl
@[simp] theorem setLive_pu (k : Nat) (f : TerminalLive → TerminalLive) : (s.setLive k f).pu = s.pu := rfl
@[simp] theorem setLive_ix (k : Nat) (f : TerminalLive → TerminalLive) : (s.setLive k f).ix = s.ix := rfl
@[simp] theorem setLive_tt (k : Nat) (f : TerminalLive → TerminalLive) : (s.setLive k f).tt = s.tt := rfl
@[simp] theorem setLive_dg (k : Nat) (f : TerminalLive → TerminalLive) : (s.setLive k f).dg = s.dg := rfl
@[simp] theorem setLive_tu (k : Nat) (f : TerminalLive → TerminalLive) : (s.setLive k f).tu = s.tu := rfl
@[simp] theorem setLive_vu (k : Nat) (f : TerminalLive → TerminalLive) : (s.setLive k f).vu = s.vu := rfl
@[simp] theorem setLive_ss (k : Nat) (f : TerminalLive → TerminalLive) : (s.setLive k f).ss = s.ss := rfl
@[simp] theorem setLive_hl (k : Nat) (f : TerminalLive → TerminalLive) : (s.setLive k f).hl = s.hl := rfl

@[simp] theorem setLink_powered (f : HostLink → HostLink) : (s.setLink f).powered = s.powered := rfl
@[simp] theorem setLink_pending (f : HostLink → HostLink) : (s.setLink f).pending = s.pending := rfl
@[simp] theorem setLink_now (f : HostLink → HostLink) : (s.setLink f).now = s.now := rfl
@[simp] theorem setLink_agenda (f : HostLink → HostLink) : (s.setLink f).agenda = s.agenda := rfl
@[simp] theorem setLink_freeCount (f : HostLink → HostLink) : (s.setLink f).freeCount = s.freeCount := rfl
@[simp] theorem setLink_mode (f : HostLink → HostLink) : (s.setLink f).mode = s.mode := rfl
@[simp] theorem setLink_sections (f : HostLink → HostLink) : (s.setLink f).sections = s.sections := rfl
@[simp] theorem setLink_fc (f : HostLink → HostLink) : (s.setLink f).fc = s.fc := rfl
@[simp] theorem setLink_pu (f : HostLink → HostLink) : (s.setLink f).pu = s.pu := rfl
@[simp] theorem setLink_ix (f : HostLink → HostLink) : (s.setLink f).ix = s.ix := rfl
@[simp] theorem setLink_tt (f : HostLink → HostLink) : (s.setLink f).tt = s.tt := rfl
@[simp] theorem setLink_dg (f : HostLink → HostLink) : (s.setLink f).dg = s.dg := rfl
@[simp] theorem setLink_tu (f : HostLink → HostLink) : (s.setLink f).tu = s.tu := rfl
@[simp] theorem setLink_vu (f : HostLink → HostLink) : (s.setLink f).vu = s.vu := rfl
@[simp] theorem setLink_ss (f : HostLink → HostLink) : (s.setLink f).ss = s.ss := rfl
@[simp] theorem setLink_hl (f : HostLink → HostLink) : (s.setLink f).hl = f s.hl := rfl

@[simp] theorem setBoard_powered (b : Nat) (f : Board → Board) : (s.setBoard b f).powered = s.powered := rfl
@[simp] theorem setBoard_pending (b : Nat) (f : Board → Board) : (s.setBoard b f).pending = s.pending := rfl
@[simp] theorem setBoard_now (b : Nat) (f : Board → Board) : (s.setBoard b f).now = s.now := rfl
@[simp] theorem setBoard_agenda (b : Nat) (f : Board → Board) : (s.setBoard b f).agenda = s.agenda := rfl
@[simp] theorem setBoard_freeCount (b : Nat) (f : Board → Board) : (s.setBoard b f).freeCount = s.freeCount := rfl
@[simp] theorem setBoard_mode (b : Nat) (f : Board → Board) : (s.setBoard b f).mode = s.mode := rfl
@[simp] theorem setBoard_sections (b : Nat) (f : Board → Board) : (s.setBoard b f).sections = s.sections := rfl
@[simp] theorem setBoard_fc (b : Nat) (f : Board → Board) : (s.setBoard b f).fc = s.fc := rfl
@[simp] theorem setBoard_pu (b : Nat) (f : Board → Board) : (s.setBoard b f).pu = s.pu := rfl
@[simp] theorem setBoard_ix (b : Nat) (f : Board → Board) : (s.setBoard b f).ix = s.ix := rfl
@[simp] theorem setBoard_tt (b : Nat) (f : Board → Board) : (s.setBoard b f).tt = s.tt := rfl
@[simp] theorem setBoard_dg (b : Nat) (f : Board → Board) : (s.setBoard b f).dg = s.dg := rfl
@[simp] theorem setBoard_tu (b : Nat) (f : Board → Board) : (s.setBoard b f).tu = s.tu := rfl
@[simp] theorem setBoard_vu (b : Nat) (f : Board → Board) :
    (s.setBoard b f).vu = { s.vu with boards := s.vu.boards.modify (b - 1) f } := rfl
@[simp] theorem setBoard_ss (b : Nat) (f : Board → Board) : (s.setBoard b f).ss = s.ss := rfl
@[simp] theorem setBoard_hl (b : Nat) (f : Board → Board) : (s.setBoard b f).hl = s.hl := rfl

@[simp] theorem setSupply_powered (f : PointUnit → PointUnit) : (s.setSupply f).powered = s.powered := rfl
@[simp] theorem setSupply_pending (f : PointUnit → PointUnit) : (s.setSupply f).pending = s.pending := rfl
@[simp] theorem setSupply_now (f : PointUnit → PointUnit) : (s.setSupply f).now = s.now := rfl
@[simp] theorem setSupply_agenda (f : PointUnit → PointUnit) : (s.setSupply f).agenda = s.agenda := rfl
@[simp] theorem setSupply_freeCount (f : PointUnit → PointUnit) : (s.setSupply f).freeCount = s.freeCount := rfl
@[simp] theorem setSupply_mode (f : PointUnit → PointUnit) : (s.setSupply f).mode = s.mode := rfl
@[simp] theorem setSupply_sections (f : PointUnit → PointUnit) : (s.setSupply f).sections = s.sections := rfl
@[simp] theorem setSupply_fc (f : PointUnit → PointUnit) : (s.setSupply f).fc = s.fc := rfl
@[simp] theorem setSupply_pu (f : PointUnit → PointUnit) : (s.setSupply f).pu = f s.pu := rfl
@[simp] theorem setSupply_ix (f : PointUnit → PointUnit) : (s.setSupply f).ix = s.ix := rfl
@[simp] theorem setSupply_tt (f : PointUnit → PointUnit) : (s.setSupply f).tt = s.tt := rfl
@[simp] theorem setSupply_dg (f : PointUnit → PointUnit) : (s.setSupply f).dg = s.dg := rfl
@[simp] theorem setSupply_tu (f : PointUnit → PointUnit) : (s.setSupply f).tu = s.tu := rfl
@[simp] theorem setSupply_vu (f : PointUnit → PointUnit) : (s.setSupply f).vu = s.vu := rfl
@[simp] theorem setSupply_ss (f : PointUnit → PointUnit) : (s.setSupply f).ss = s.ss := rfl
@[simp] theorem setSupply_hl (f : PointUnit → PointUnit) : (s.setSupply f).hl = s.hl := rfl

@[simp] theorem setCaps_powered (f : Interlocking → Interlocking) : (s.setCaps f).powered = s.powered := rfl
@[simp] theorem setCaps_pending (f : Interlocking → Interlocking) : (s.setCaps f).pending = s.pending := rfl
@[simp] theorem setCaps_now (f : Interlocking → Interlocking) : (s.setCaps f).now = s.now := rfl
@[simp] theorem setCaps_agenda (f : Interlocking → Interlocking) : (s.setCaps f).agenda = s.agenda := rfl
@[simp] theorem setCaps_freeCount (f : Interlocking → Interlocking) : (s.setCaps f).freeCount = s.freeCount := rfl
@[simp] theorem setCaps_mode (f : Interlocking → Interlocking) : (s.setCaps f).mode = s.mode := rfl
@[simp] theorem setCaps_sections (f : Interlocking → Interlocking) : (s.setCaps f).sections = s.sections := rfl
@[simp] theorem setCaps_fc (f : Interlocking → Interlocking) : (s.setCaps f).fc = s.fc := rfl
@[simp] theorem setCaps_pu (f : Interlocking → Interlocking) : (s.setCaps f).pu = s.pu := rfl
@[simp] theorem setCaps_ix (f : Interlocking → Interlocking) : (s.setCaps f).ix = f s.ix := rfl
@[simp] theorem setCaps_tt (f : Interlocking → Interlocking) : (s.setCaps f).tt = s.tt := rfl
@[simp] theorem setCaps_dg (f : Interlocking → Interlocking) : (s.setCaps f).dg = s.dg := rfl
@[simp] theorem setCaps_tu (f : Interlocking → Interlocking) : (s.setCaps f).tu = s.tu := rfl
@[simp] theorem setCaps_vu (f : Interlocking → Interlocking) : (s.setCaps f).vu = s.vu := rfl
@[simp] theorem setCaps_ss (f : Interlocking → Interlocking) : (s.setCaps f).ss = s.ss := rfl
@[simp] theorem setCaps_hl (f : Interlocking → Interlocking) : (s.setCaps f).hl = s.hl := rfl

end Sys2Proof.Machine
end

