-- ==== Sys2Proof/WellFormed.lean ====
section
/-! DEFINITION. Which commands can arrive: the forms R153 and R157 give to a host line, and the numbers and
lengths that an event of the table can carry. No meaning reads this: an ill-formed command has the effect its
arguments give it. -/

namespace Sys2Proof

/-- Code 32 to 126 (R150). -/
def plainChar (c : Char) : Bool := decide (32 ≤ c.toNat) && decide (c.toNat ≤ 126)

/-- A word of a line: one printable character or more, no space (R157). -/
def wordOk (t : Text) : Bool := !t.isEmpty && t.all fun c => plainChar c && c != ' '

/-- What a quoted text encloses (R157). -/
def quotedOk (t : Text) : Bool := t.all fun c => plainChar c && c != '"'

/-- A number of a line has at most five digits (R157). -/
def numberOk (n : Nat) : Bool := decide (n ≤ 99999)

/-- A field or a setting: a name without an equals sign (R157). -/
def assignOk (p : Text × Text) : Bool :=
  wordOk p.1 && !p.1.contains '=' && p.2.all plainChar

/-- The record a definition names fits its kind word (R9, R157). -/
def recordOk (kind : Text) (r : RecordRef) : Bool :=
  match r with
  | .unnamed => kind == "TURNTABLE".toList
  | .terminal m t => kind == "TERMINAL".toList && numberOk m && numberOk t
  | .num n => kind != "TURNTABLE".toList && kind != "TERMINAL".toList && numberOk n
  | .other => kind != "TURNTABLE".toList

/-- The number of a source word is a number of a line. -/
def sourceOk : SourceWord → Bool
  | .train n | .show n => numberOk n
  | .blank => true

/-- The cells of one image exchange: 48 of each module and the 16 of the tail (R24, R157). -/
def scanLengthOk (n : Nat) : Bool :=
  decide (16 ≤ n) && (n - 16) % 48 == 0 && decide (n ≤ Config.maxModules * 48 + 16)

/-- The command can arrive. -/
def Instr.wellFormed : Instr → Bool
  | .define k r fs => wordOk k && recordOk k r && !fs.isEmpty && fs.all assignOk
  | .defDelete k r => wordOk k && recordOk k r
  | .setup ps => !ps.isEmpty && ps.all assignOk
  | .getSection n | .getModule n | .getPoint n | .getRoute n | .getSignal n | .getTrain n | .getChannel n
  | .getRoad n | .getShow n | .getBoard n | .getAux n | .routeSet n | .routeStore n | .routeCan n
  | .trainReverse n | .trainRelease n | .trainTake n | .trainRemove n | .timebase n | .showEnable n
  | .showDisable n | .showAbort n | .point n _ | .chanForce n _ | .turn n _ _ => numberOk n
  | .getTerminal m t => numberOk m && numberOk t
  | .trainPlace n x _ | .trainSpeed n x | .aux n x => numberOk n && numberOk x
  | .trainRunlist n _ rs => numberOk n && rs.all numberOk
  | .boardText b l t => numberOk b && numberOk l && quotedOk t
  | .boardSource b l w => numberOk b && numberOk l && sourceOk w
  | .tell ws => !ws.isEmpty
  | .baud n => numberOk n || n == 115200 || n == 230400
  | .enumerationWord cells => cells.length == 48
  | .shiftEnd cells => scanLengthOk cells.length
  | .detectionTimeout p => decide (p < Config.maxPoints)
  | .settingTimeout r | .approachReleaseTimerExpiry r | .requestExpiry r | .overlapTimerExpiry r
  | .dwellTimerExpiry r => decide (r < Config.maxRoutes)
  | .lostTimerExpiry n => decide (n < Config.maxTrains)
  | .legTimerExpiry n | .showDwellTimerExpiry n | .coolDownTimerExpiry n => decide (n < Config.maxShows)
  | .probeTimerExpiry b => decide (1 ≤ b) && decide (b ≤ Config.maxBoards)
  | .replyFrame bytes => bytes.length == 4
  | _ => true

end Sys2Proof
end

