-- ==== Sys2Proof/Tests/Slice0.lean ====
section
/-! SUPPORT. The model's own tests: an ill-formed command for each check of WellFormed, small worked examples of the
commands, and, for each statement that has hypotheses, a state and operands that meet them. -/

namespace Sys2Proof.Tests

open Sys2Proof Sys2Proof.Machine

set_option Elab.async false

/-! ## WellFormed refuses -/

theorem test_wf_define :
    (Instr.define [] (.num 0) [("KIND".toList, "POINT".toList)]).wellFormed = false ∧
    (Instr.define "SECTION".toList (.num 0) []).wellFormed = false ∧
    (Instr.define "SECTION".toList (.num 0) [("A=B".toList, [])]).wellFormed = false ∧
    (Instr.define "SECTION".toList (.num 0) [("KIND".toList, [Char.ofNat 31])]).wellFormed = false ∧
    (Instr.define "SECTION".toList (.num 0) [("KIND".toList, "POINT".toList)]).wellFormed = true := by decide

theorem test_wf_record :
    (Instr.defDelete "A B".toList (.num 0)).wellFormed = false ∧
    (Instr.defDelete "TURNTABLE".toList (.num 0)).wellFormed = false ∧
    (Instr.defDelete "TURNTABLE".toList .other).wellFormed = false ∧
    (Instr.defDelete "POINT".toList .unnamed).wellFormed = false ∧
    (Instr.defDelete "POINT".toList (.terminal 0 0)).wellFormed = false ∧
    (Instr.defDelete "TERMINAL".toList (.terminal 0 100000)).wellFormed = false ∧
    (Instr.defDelete "POINT".toList (.num 100000)).wellFormed = false := by decide

theorem test_wf_words :
    (Instr.setup []).wellFormed = false ∧ (Instr.tell []).wellFormed = false ∧
    (Instr.boardText 1 1 ['"']).wellFormed = false ∧
    (Instr.boardSource 1 1 (.train 100000)).wellFormed = false := by decide

theorem test_wf_numbers :
    (Instr.getSection 100000).wellFormed = false ∧ (Instr.getTerminal 0 100000).wellFormed = false ∧
    (Instr.trainSpeed 0 100000).wellFormed = false ∧ (Instr.trainRunlist 0 .once [100000]).wellFormed = false ∧
    (Instr.baud 230401).wellFormed = false ∧ (Instr.baud 230400).wellFormed = true := by decide

theorem test_wf_events :
    (Instr.enumerationWord []).wellFormed = false ∧ (Instr.shiftEnd []).wellFormed = false ∧
    (Instr.shiftEnd (List.replicate 63 true)).wellFormed = false ∧
    (Instr.shiftEnd (List.replicate 64 true)).wellFormed = true ∧
    (Instr.detectionTimeout 64).wellFormed = false ∧ (Instr.settingTimeout 256).wellFormed = false ∧
    (Instr.lostTimerExpiry 32).wellFormed = false ∧ (Instr.legTimerExpiry 8).wellFormed = false ∧
    (Instr.probeTimerExpiry 0).wellFormed = false ∧ (Instr.probeTimerExpiry 5).wellFormed = false ∧
    (Instr.replyFrame [2, 1, 6]).wellFormed = false := by decide

/-! ## The states of the tests -/

/-- A part at rest: no report waits, and the reply of board 1 to a probe is awaited. -/
def calm : State := { State.reset with hl := {}, vu := { link := .awaiting (.probe 1) 80000 } }

/-- A part in RUN: section 0, a platform, joins section 1, both on channel 0; point 0 in section 2; the bridge in
section 3, standing at road 0. Signal 0 at the end of section 0 leads route 0 into section 1. -/
def yard : State := { calm with
  mode := .run
  sections := [(0, { cfg := { endB := .sectionEnd 1 .a, channel := some 0, platform := some 1 } }),
    (1, { cfg := { endA := .sectionEnd 0 .b, channel := some 0 } }),
    (2, { cfg := { kind := .point, point := some 0 } }),
    (3, { cfg := { kind := .bridge, channel := some 5 } })]
  fc := { seq := .idle, seqDue := none, condition := .healthy }
  pu := { points := [(0, { position := .normal })], supply := .ready }
  ix := {
    routes := [(0, { cfg := { entry := some 0, path := [1] } })]
    signals := [(0, { cfg := { location := some (0, .b) } })] }
  tt := { trains := [(0, { cfg := { tag := some "A1".toList }, state := .unplaced })] }
  tu := { bridge := some {}, roads := [(0, {}), (1, { position := 10 })], state := .aligned, position := some 0
          faceA := some 0 }
  vu := { calm.vu with shows := [(0, { cfg := { train := some 0 } })] } }

/-- The yard with train 0 standing in section 0, its lead at signal 0. -/
def manned : State := { yard with
  sections := Table.update yard.sections 0 fun r => { r with occupied := true }
  tt := { trains := [(0, { cfg := { tag := some "A1".toList }, state := .active
                           list := [{ sec := 0, exit := .b, entry := .a }] })] } }

/-- The yard in CONFIG, no train on it. -/
def bench : State := { yard with mode := .config }

theorem test_ready : calm.Ready ∧ yard.Ready ∧ manned.Ready ∧ bench.Ready :=
  ⟨⟨⟨rfl, rfl, rfl⟩, rfl⟩, ⟨⟨rfl, rfl, rfl⟩, rfl⟩, ⟨⟨rfl, rfl, rfl⟩, rfl⟩, ⟨⟨rfl, rfl, rfl⟩, rfl⟩⟩

/-- What the test looks at in the next state, if there is one. -/
def after (o : Host.Outcome State Fault Refusal) (p : State → Bool) : Bool :=
  match o with
  | .next t => p t
  | _ => false

/-- The reply on its way to the host. -/
def replied (s : State) : Option Reply :=
  match s.hl.tx with
  | some (.reply r) => some r
  | _ => none

/-! ## Worked examples -/

/-- Power applied to a part whose store is BLANK, the loop CLOSED, gives the state after reset. -/
theorem test_power_on : powerOn .closed { powered := false } = State.reset := by decide +kernel

theorem test_points :
    after (exec (.point 0 .r) yard) (fun t => replied t == some (.ok .bare)
      && decide (t.pu.supply = .pulsing { point := 0, pos := .r, scans := 10, startedAt := 0 })) = true ∧
    after (exec (.point 0 .n) yard) (fun t => decide (t.pu = yard.pu)) = true ∧
    after (exec (.point 1 .n) yard) (fun t => replied t == some (.no .unknown none)) = true := by decide +kernel

theorem test_routes :
    after (exec (.routeSet 0) yard) (fun t => replied t == some (.ok (.route 0 .set)) && t.lockOf 1 == some 0
      && decide ((t.signal? 0).map (fun g => g.aspect) = some .caution)) = true ∧
    after (exec (.routeSet 1) yard) (fun t => replied t == some (.no .unknown none)) = true ∧
    after (exec (.routeStore 0) { yard with ss := { stop := true } }) (fun t =>
      replied t == some (.ok (.routeQueued 0))) = true ∧
    after (exec (.routeCan 0) yard) (fun t => replied t == some (.ok (.route 0 .idle))) = true := by decide +kernel

theorem test_trains :
    after (exec (.trainPlace 0 0 (some .b)) yard) (fun t => replied t == some (.ok (.trainActive 0))
      && t.holder 0 == some 0) = true ∧
    after (exec (.trainSpeed 0 40) manned) (fun t => decide ((t.train? 0).map (fun r => r.demand) = some 40)) = true ∧
    after (exec (.trainReverse 0) manned) (fun t => decide ((t.train? 0).map (fun r => r.list) =
      some [{ sec := 0, exit := .a, entry := .b }])) = true ∧
    after (exec (.trainRemove 0) manned) (fun t => replied t == some (.ok (.trainUnplaced 0))) = true ∧
    after (exec (.trainRunlist 0 .loop [0]) manned) (fun t => replied t == some (.ok (.trainRunlist 0))
      && decide ((t.route? 0).map (fun q => q.state) = some .set)) = true := by decide +kernel

theorem test_drive :
    after (exec (.timebase 800) yard) (fun t => decide (t.dg.shadow = 800 ∧ t.dg.period = 400)) = true ∧
    after (exec (.timebase 199) yard) (fun t => replied t == some (.no .range none)) = true ∧
    after (exec (.chanForce 9 (some .fullPos)) yard) (fun t =>
      replied t == some (.ok (.chanForce 9 .fullPos))) = true ∧
    after (exec .counterZero { yard with dg := { yard.dg with shadow := 800 } }) (fun t =>
      decide (t.dg.period = 800 ∧ t.now = 400 ∧ t.dg.divider = 1)) = true ∧
    after (exec .governorTick { manned with
      dg := { yard.dg with divider := 200 }
      tt := { trains := Table.update manned.tt.trains 0 fun t => { t with demand := 40, cap := some 127 } } }) (fun t =>
        decide (t.currentOf 0 = 0)) = true := by decide +kernel

theorem test_bridge :
    after (exec (.turn 1 (some .a) none) yard) (fun t => replied t == some (.ok (.turnMoving 1 .a .cw))
      && decide (t.tu.state = .moving ∧ t.tu.rate = 100)) = true ∧
    after (exec .turnHome yard) (fun t => decide (t.tu.state = .homing)) = true ∧
    after (exec .thomeEdge { yard with tu := { yard.tu with state := .homing, position := none } }) (fun t =>
      decide (t.tu.state = .aligned ∧ t.tu.faceA = some 0)) = true := by decide +kernel

theorem test_shows_and_boards :
    after (exec (.showEnable 0) manned) (fun t => replied t == some (.ok (.show 0 .ready))) = true ∧
    after (exec (.boardText 1 1 "HELLO".toList) calm) (fun t => decide (t.vu.boardQueue = [(1, 1)])) = true ∧
    after (exec (.boardText 5 1 []) calm) (fun t => replied t == some (.no .range none)) = true ∧
    after (exec (.replyFrame [2, 1, 6, 9]) calm) (fun t => (t.board 1).online && t.vu.boardQueue.length == 4) = true ∧
    yard.composeLine (.train 0) = "A1".toList ++ List.replicate 30 ' ' := by decide +kernel

theorem test_chain :
    after (exec .chResetEnd calm) (fun t => decide (t.fc.seq = .enumerate ∧ t.now = 64)) = true ∧
    after (exec (.enumerationWord Config.tailPattern) { calm with fc := { seq := .enumerate } }) (fun t =>
      decide (t.fc.seq = .capture ∨ t.fc.condition = .settling)) = true ∧
    after (exec .chainReset yard) (fun t => decide (t.fc.seq = .chReset ∧ t.fc.condition = .down)) = true ∧
    after (exec (.shiftEnd []) { yard with fc := { yard.fc with seq := .shift } }) (fun t =>
      decide (t.fc.seq = .halted ∧ t.fc.lastFault = some .tail)) = true ∧
    after (exec (.shiftEnd Config.tailPattern) { yard with fc := { yard.fc with seq := .shift } }) (fun t =>
      decide (t.fc.seq = .update)) = true := by decide +kernel

theorem test_modes_and_definitions :
    after (exec (.define "SECTION".toList (.num 7) [("KIND".toList, "PLAIN".toList)]) bench) (fun t =>
      replied t == some (.ok .bare) && (t.section? 7).isSome) = true ∧
    after (exec (.define "SECTION".toList (.num 128) [("KIND".toList, "PLAIN".toList)]) bench) (fun t =>
      replied t == some (.no .range none)) = true ∧
    after (exec (.defDelete "POINT".toList (.num 0)) bench) (fun t => (t.point? 0).isNone) = true ∧
    after (exec .modeConfig yard) (fun t => decide (t.mode = .config ∧ t.fc.seq = .chReset)) = true ∧
    after (exec .modeRun calm) (fun t => decide (t.mode = .run)) = true ∧
    after (exec .modeRun bench) (fun t => (replied t).isSome && decide (t.mode = .config)) = true := by decide +kernel

theorem test_stop_and_store :
    after (exec .estop manned) (fun t => t.ss.stop) = true ∧
    after (exec .resume { yard with ss := { stop := true } }) (fun t => replied t == some (.ok .resume)) = true ∧
    after (exec (.stoploopChange .opened) yard) (fun t => t.ss.stop && decide (t.ss.loop = .opened)) = true ∧
    after (exec .save calm) (fun t => replied t == some (.ok .save) && t.ss.save.isSome) = true ∧
    after (exec .lossOfPower yard) (fun t => !t.powered) = true := by decide +kernel

theorem test_link :
    (parseLine "POINT 12 R".toList).toOption = some (.point 12 .r) ∧
    (parseLine "FLY 1".toList).toOption = none ∧
    after (exec .unknownCommand calm) (fun t => replied t == some (.no .unknown none)) = true ∧
    after (exec (.characterReceived 97 false) calm) (fun t =>
      decide (t.hl.line = some { chars := ['A'] } ∧ t.hl.gapTimer = some 8000000)) = true ∧
    after (exec (.characterReceived 13 false) { calm with hl := { line := some { chars := "GET LINK".toList } } })
      (fun t => (replied t).isSome) = true ∧
    after (exec .rxdBreak calm) (fun t => t.hl.rxBreak) = true ∧
    after (exec (.baud 9600) calm) (fun t => replied t == some (.ok (.baud 9600))) = true ∧
    after (exec .lineSent { calm with hl := { tx := some (.reply (.ok (.baud 9600))) } }) (fun t =>
      decide (t.hl.speed = 9600)) = true := by decide +kernel

/-! ## The hypotheses of the statements are met -/

/-- A part whose transmitter sends and whose slot holds a reply, with a line buffer and counts as given. -/
def waiting (buffer owed lost : Nat) : State := { calm with
  hl := { slot := some (.ok .bare), tx := some (.reply (.ok .bare)), buffer := List.replicate buffer (.mark .late)
          owed := owed, lost := lost } }

theorem test_hyps_AnEmptyQueueRestsAndNoPowerDoesNothing :
    (State.reset.pending = [] ∧ State.reset.powered = true) ∧
    (({ calm with powered := false } : State).pending = [] ∧ ({ calm with powered := false } : State).powered = false) := by
  decide

theorem test_hyps_TheLinkStaysWithinItsCapacities :
    (waiting 4 255 65535).hl.inBounds = true ∧ after (step (waiting 4 255 65535)) (fun _ => true) = true := by
  decide +kernel

theorem test_hyps_TheTablesStayCanonical :
    manned.tablesWf = true ∧ after (step manned) (fun t => t.tablesWf) = true := by decide +kernel

theorem test_hyps_OnlyDefinitionsAndSavesChangeTheTables :
    yard.AtRest ∧ after (exec (.point 0 .r) yard) (fun t => decide (t ≠ yard ∧ t.tables = yard.tables)) = true := by
  unfold State.AtRest; decide +kernel

theorem test_hyps_HandOversLeaveTheRestAlone : bench.Settled ∧ manned.Settled := by
  unfold State.Settled; decide +kernel

theorem test_hyps_HostLinesAreTakenOrWait :
    hostRow .getLink = true ∧ calm.Ready ∧ (waiting 0 0 0).AtRest ∧ (waiting 0 0 0).hl.slot ≠ none ∧
    (waiting 4 0 0).AtRest := by
  unfold State.Ready State.AtRest; decide +kernel

theorem test_hyps_TheLineBufferKeepsR152 :
    (waiting 3 0 0).hl.buffer.length < 4 ∧ (4 ≤ (waiting 4 254 0).hl.buffer.length ∧ (waiting 4 254 0).hl.owed < 255) ∧
    (4 ≤ (waiting 4 255 65535).hl.buffer.length ∧ 255 ≤ (waiting 4 255 65535).hl.owed) ∧
    (let s : State := { waiting 4 0 0 with hl := { (waiting 4 0 0).hl with line := some { chars := [], fault := some .bad } } }
     s.AtRest ∧ s.hl.slot ≠ none ∧ s.hl.rxBreak = false) ∧
    (let s : State := { waiting 3 0 0 with hl := { (waiting 3 0 0).hl with line := some { chars := ['A'] } } }
     s.AtRest ∧ s.hl.slot ≠ none ∧ s.hl.rxBreak = false) ∧
    0 < (waiting 0 1 0).hl.owed ∧ calm.Ready := by
  unfold State.Ready State.AtRest; decide +kernel

theorem test_hyps_TheTransmitterChoosesByR155 :
    ((waiting 0 0 0).hl.owed = 0 ∧ (waiting 0 0 0).hl.slot = some (.ok .bare)) ∧
    (let h : HostLink := { reports := List.replicate 64 .sysBreak, overflow := true }
     h.owed = 0 ∧ h.slot = none ∧ h.reports = .sysBreak :: List.replicate 63 .sysBreak ∧
     h.classes.contains Report.sysBreak.class = true ∧ 64 ≤ h.reports.length) ∧
    ({ classes := [] } : HostLink).classes.contains Report.sysBreak.class = false ∧
    ({ reports := List.replicate 63 .sysBreak } : HostLink).reports.length < 64 := by decide +kernel

theorem test_hyps_ReceptionFollowsR150AndR151 :
    (let s : State := { calm with hl := { rxBreak := true } }
     s.AtRest ∧ s.hl.rxBreak = true) ∧
    (calm.AtRest ∧ calm.hl.rxBreak = false ∧ calm.hl.line = none ∧ calm.hl.gapTimer = none) ∧
    (let s : State := { calm with hl := { line := some { chars := List.replicate 120 'A' }, gapTimer := some 1 } }
     s.AtRest ∧ s.hl.rxBreak = false ∧ s.hl.gapTimer = some 1) := by
  unfold State.AtRest; decide +kernel

theorem test_hyps_ALineSentFreesTheTransmitter :
    (let s : State := { calm with hl := { tx := some (.reply (.ok (.baud 9600))) } }
     s.AtRest ∧ s.hl.tx = some (.reply (.ok (.baud 9600)))) ∧
    (let s : State := { calm with hl := { tx := some (.reply (.ok .reset)) } }
     s.AtRest ∧ s.hl.tx = some (.reply (.ok .reset))) ∧
    (waiting 0 0 0).AtRest := by
  unfold State.AtRest; decide +kernel

theorem test_hyps_ofReadyParts_MarksQueriesSettingsAux : calm.Ready ∧ yard.Ready ∧ manned.Ready := by
  unfold State.Ready State.AtRest; decide +kernel

theorem test_hyps_SpelledLinesReadBack :
    (99999 : Nat) ≤ 99999 ∧ (parseLine ("ROUTE SET ".toList ++ digits 99999)).toOption = some (.routeSet 99999) ∧
    (parseLine ("ROUTE SET ".toList ++ digits 0)).toOption = some (.routeSet 0) := by decide +kernel

theorem test_hyps_AuxTellAndChainMode :
    calm.Ready ∧ [(true, ReportClass.sec), (false, ReportClass.sec)] ≠ [] ∧
    after (exec (.tell [.enable (some .sec), .disable (some .sec)]) calm) (fun t => !t.hl.classes.contains .sec) = true ∧
    after (exec (.tell [.disable (some .aux), .unsigned]) calm) (fun t =>
      replied t == some (.no .badForm none) && t.hl.classes.contains .aux) = true ∧
    after (exec (.tell [.enable none, .unsigned]) calm) (fun t => replied t == some (.no .badForm none)) = true ∧
    after (exec (.tell [.enable (some .sec), .disable none]) calm) (fun t =>
      replied t == some (.no .unknown none)) = true ∧
    after (exec (.aux 15 1) calm) (fun t => t.hl.auxOut[15]? == some true) = true ∧
    after (exec (.aux 16 1) calm) (fun t => replied t == some (.no .range none)) = true := by
  unfold State.Ready State.AtRest; decide +kernel

theorem test_hyps_TheTimeBaseAndItsZerosFollowR106ToR112 : yard.Ready ∧ yard.AtRest := by
  unfold State.Ready State.AtRest; decide +kernel

theorem test_hyps_AFloatingChannelNeverDrives :
    bench.FloatsByR109 ∧ ({ yard with ss := { stop := true } } : State).FloatsByR109 := by
  unfold State.FloatsByR109; decide +kernel

theorem test_hyps_ChanForceKeepsR111 :
    manned.Ready ∧ manned.FloatsByR109 ∧ (∃ x ∈ manned.sections, x.2.cfg.channel = some 0) := by
  unfold State.Ready State.AtRest State.FloatsByR109; decide +kernel

theorem test_hyps_SetupIsTakenWhole :
    calm.Ready ∧ (∃ f, setupKey "RECHARGE".toList "100".toList = .ok f) ∧
    setupKey "RECHARGE".toList "99".toList = .error .range ∧
    setupKey "RECHARGES".toList "100".toList = .error .badForm :=
  ⟨test_ready.1, ⟨_, rfl⟩, rfl, rfl⟩

theorem test_hyps_EverySettingTakesItsRange :
    after (exec (.setup [("SCAN-PERIOD".toList, digits 50)]) calm) (fun t => decide (t.fc.period = 50)) = true ∧
    after (exec (.setup [("SCAN-PERIOD".toList, digits 51)]) calm) (fun t => decide (t.fc = calm.fc)) = true ∧
    after (exec (.setup [("LOST-TIME".toList, digits 500)]) calm) (fun t => decide (t.tt.lostTime = 500)) = true ∧
    after (exec (.setup [("LOST-TIME".toList, digits 499)]) calm) (fun t => decide (t.tt = calm.tt)) = true := by
  decide +kernel

theorem test_hyps_ConfigRunsNothing :
    bench.RunsNothingInConfig ∧ bench.mode = .config ∧ manned.RunsNothingInConfig := by
  unfold State.RunsNothingInConfig; decide +kernel

theorem test_hyps_ModeRunValidatesAndEntersRun :
    (yard.Ready ∧ yard.mode = .run) ∧
    (let s : State := { calm with ss := { save := some { copy := {}, bank := 0, seq := 0 } } }
     s.Ready ∧ s.mode = .config ∧ s.ss.save ≠ none) ∧
    (bench.Ready ∧ bench.mode = .config ∧ bench.ss.save = none ∧ bench.validate ≠ none) ∧
    (calm.Ready ∧ calm.mode = .config ∧ calm.ss.save = none ∧ calm.validate = none ∧ calm.FloatsByR109 ∧
      calm.RunsNothingInConfig) := by
  unfold State.Ready State.AtRest State.FloatsByR109 State.RunsNothingInConfig; decide +kernel

theorem test_hyps_ModeConfigEntersConfig :
    (bench.Ready ∧ bench.mode = .config) ∧
    (let s : State := { yard with tu := { yard.tu with state := .moving } }
     s.Ready ∧ s.mode = .run ∧ s.tu.state = .moving) ∧
    (manned.Ready ∧ manned.agenda = [] ∧ manned.mode = .run ∧ manned.ss.save = none ∧
      (∀ x ∈ manned.ix.routes, x.2.state = .idle) ∧
      (∀ x ∈ manned.tt.trains, x.2.current = 0) ∧ manned.tu.state ≠ .moving) := by
  unfold State.Ready State.AtRest; decide +kernel

theorem test_hyps_DefinitionsAreRefusedByR10 :
    yard.Ready ∧ yard.mode = .run ∧ bench.Ready ∧ bench.mode = .config ∧
    (let s : State := { bench with pu := { points := [(0, { phase := .queued })] } }
     s.Ready ∧ ∃ r, s.point? 0 = some r ∧ r.phase ≠ .atRest) := by
  unfold State.Ready State.AtRest
  refine ⟨by decide +kernel, by decide +kernel, by decide +kernel, by decide +kernel, by decide +kernel, _, rfl, ?_⟩
  decide

theorem test_hyps_DefinitionsAreTakenWhole :
    bench.Ready ∧ bench.mode = .config ∧ bench.ss.save = none ∧
    (∃ w : List (SectionCfg → SectionCfg), [("SPEED-LIMIT".toList, "127".toList)].map (fun q => sectionField .plain q.1 q.2) = w.map .ok) ∧
    sectionField .plain "SPEED-LIMIT".toList "128".toList = .error .range ∧
    (∀ r, bench.point? 0 = some r → r.phase = .atRest) ∧ ¬ bench.tu.ten = true := by
  refine ⟨test_ready.2.2.2, rfl, rfl, ⟨[_], rfl⟩, rfl, ?_, by decide⟩
  intro r h; cases h; rfl

theorem test_hyps_DeletionsMakeRecordsAbsent :
    bench.Ready ∧ bench.mode = .config ∧ bench.ss.save = none ∧ bench.tu.bridge ≠ none ∧ ¬ bench.tu.ten = true := by
  unfold State.Ready State.AtRest; decide +kernel

theorem test_hyps_ChecksJudgeByR15ToR20 : bench.tablesWf = true ∧ bench.checkStopchan = none := by decide +kernel

theorem test_hyps_PointCommandsFollowR51AndR43 :
    yard.Ready ∧ yard.point? 0 = some { position := .normal } ∧ yard.point? 63 = none := by
  unfold State.Ready State.AtRest; decide +kernel

theorem test_hyps_PulsesStartOnlyByR45 :
    (let s : State := { yard with pu := { yard.pu with supply := .recharging 7 } }
     s.AtRest ∧ s.pu.supply = .recharging 7) ∧
    (let s : State := { yard with pu := { yard.pu with queue := [(0, .r)] } }
     s.pu.supply = .ready ∧ (considerPulse s).pu.supply =
       .pulsing { point := 0, pos := .r, scans := 10, startedAt := 0 }) ∧
    (yard.pu.supply = .ready ∧ yard.fc.condition = .healthy ∧ yard.ss.stop = false ∧
      (considerPulse yard).pu.supply = .ready) := by
  unfold State.AtRest; decide +kernel

theorem test_hyps_PulsesEndByR46AndR47 :
    (let s : State := { yard with pu := { points := [(0, { position := .movingR, commanded := some .r, phase := .pulsing })]
                                          supply := .pulsing { point := 0, pos := .r, scans := 2, startedAt := 0 } } }
     (pointsUpdate 0 s = s) ∧ (pointsUpdate 1 s ≠ s)) ∧
    (let s : State := { yard with pu := { points := [(0, { position := .movingR, commanded := some .r, phase := .pulsing })]
                                          supply := .pulsing { point := 0, pos := .r, scans := 9, startedAt := 0
                                                               offAt := some 4 } } }
     (pointsUpdate 4 s).pu.supply = .pulsing { point := 0, pos := .r, scans := 9, count := 1, startedAt := 0
                                               offAt := some 4 } ∧
     pointsUpdate 5 s = endPulse s) ∧
    (let s : State := { yard with pu := { yard.pu with
        points := [(0, { position := .movingR, phase := .awaiting, detTimer := some 9 })] } }
     s.AtRest ∧ s.point? 0 = some { position := .movingR, phase := .awaiting, detTimer := some 9 }) := by
  unfold State.AtRest; decide +kernel

/-- The route record of the yard. -/
def way : RouteRec := { cfg := { entry := some 0, path := [1] } }

theorem test_hyps_TheSettableTestIsR57AndR58 :
    yard.route? 0 = some way ∧ way.state = .idle ∧ yard.settable 0 way = none ∧
    yard.settable 0 { way with state := .set } = some (.state, some (.route 0)) ∧
    yard.settable 0 { way with cfg := { way.cfg with points := [(0, .r)] } } = none := by decide +kernel

theorem test_hyps_RoutesAreSetAndStored :
    yard.Ready ∧ yard.settable 0 way = none ∧ ({ yard with ss := { stop := true } } : State).Ready ∧
    ({ yard with ss := { stop := true } } : State).settable 0 way = some (.stopped, none) := by
  unfold State.Ready State.AtRest; decide +kernel

theorem test_hyps_SettingARouteLocksIt :
    yard.route? 0 = some way ∧ yard.section? 1 ≠ none ∧ (enterSetting 0 way.cfg yard).lockOf 1 = some 0 := by
  decide +kernel

/-- The yard with the route in a state and its timers running. -/
def held (st : RouteState) (train : Option Nat) : State := { manned with
  sections := Table.update manned.sections 1 fun r => { r with lock := some 0 }
  ix := { manned.ix with
    routes := [(0, { way with state := st, train := train, settingTimer := some 1, approachTimer := some 2
                              overlapTimer := some 3, dwellTimer := some 4 })]
    requests := [{ route := 0, origin := .link, expiry := some 5 }] } }

theorem test_hyps_ReleasedRoutesHoldNothing :
    (held .setting none).AtRest ∧ (held .cancelPending none).AtRest ∧ (held .setting none).tablesWf = true ∧
    (held .setting none).Ready ∧
    (held .setting none).ix.requests.find? (fun e => e.route == 0) =
      some { route := 0, origin := .link, expiry := some 5 } := by
  unfold State.Ready State.AtRest; decide +kernel

theorem test_hyps_NoSectionIsReleasedUnderItsTrain :
    (held .occupied (some 0)).AtRest ∧ (held .occupied (some 0)).tablesWf = true ∧
    (held .occupied (some 0)).active 0 = true ∧ (held .occupied (some 0)).inList 0 0 = true ∧
    ((held .occupied (some 0)).route? 0).map (fun q => (q.overlapTimer, q.dwellTimer, q.train)) =
      some (some 3, some 4, some 0) := by
  unfold State.AtRest; decide +kernel

theorem test_hyps_TheAssignmentOfAspectsIsTheOnlyOne : ∀ g, calm.MeetsRules (fun _ => .stop) g := by
  intro g; exact rfl

theorem test_hyps_EveryArrivalSettlesAspectsAndCuts : (workOut yard yard).ix.signals ≠ [] := by decide +kernel

/-- The train of the yard under show 0. -/
def lent : State := { manned with
  tt := { trains := Table.update manned.tt.trains 0 fun t => { t with driver := .show 0 } }
  vu := { yard.vu with shows := [(0, { cfg := { train := some 0 }, state := .running, legTimer := some 6
                                       phase := .dwell, dwellTimer := some 7 })] } }

theorem test_hyps_SpeedTakeAndRelease :
    manned.Ready ∧ lent.Ready ∧
    (lent.train? 0).map (fun t => t.driver) = some (.show 0) ∧ (lent.show? 0).map (fun w => w.state) = some .running ∧
    after (exec (.trainTake 0) lent) (fun t => replied t == some (.ok (.trainLink 0))) = true ∧
    after (exec (.trainRelease 0) manned) (fun t => replied t == some (.ok (.trainReleased 0))) = true := by
  unfold State.Ready State.AtRest; decide +kernel

theorem test_hyps_TrainsArePlacedAndRemoved :
    yard.Ready ∧ yard.tablesWf = true ∧ (yard.section? 0).map (fun r => r.cfg.kind) = some .plain ∧
    (yard.train? 0).map (fun t => t.state) = some .unplaced ∧ yard.mode = .run ∧ yard.fc.condition = .healthy ∧
    yard.holder 0 = none ∧ manned.Ready ∧ manned.tablesWf = true ∧
    (manned.train? 0).map (fun t => (t.state, t.current)) = some (.active, 0) := by
  unfold State.Ready State.AtRest; decide +kernel

theorem test_hyps_TrainsReverseAndTakeRunLists :
    manned.Ready ∧ (manned.train? 0).isSome = true ∧ manned.fc.condition = .healthy ∧
    ({ manned with fc := {} } : State).fc.condition ≠ .healthy := by
  unfold State.Ready State.AtRest; decide +kernel

theorem test_hyps_ALostTrainKeepsItsLocks :
    (let s : State := { manned with tt := { trains := Table.update manned.tt.trains 0 fun t =>
        { t with lostTimer := some 8 } } }
     s.AtRest ∧ (s.train? 0).map (fun t => (t.state, t.lostTimer, t.list.getLast?)) =
       some (.active, some 8, some { sec := 0, exit := .b, entry := .a })) := by
  unfold State.AtRest; decide +kernel

theorem test_hyps_TargetsAndRampsFollowR113AndR116 :
    ∃ t, manned.train? 0 = some t ∧ t.current ≤ 2032 ∧ t.cfg.emergency = 2032 ∧ 16 * manned.target t ≤ t.current :=
  ⟨_, rfl, by decide +kernel⟩

theorem test_hyps_ChannelsSettleByR118ToR122 :
    (manned.trainsOn 0).map (fun t => t.polarities) = [[.neg]] ∧ manned.trainsOn 1 = [] ∧
    ({} : TrainCfg).v0 < ({} : TrainCfg).vmax := by decide +kernel

theorem test_hyps_GovernorTicksFollowR112 :
    manned.AtRest ∧ manned.tablesWf = true ∧ manned.dg.divider < max 1 (80000 / manned.dg.period) ∧
    (let s : State := { manned with dg := { manned.dg with divider := 200 } }
     s.AtRest ∧ s.tablesWf = true ∧ max 1 (80000 / s.dg.period) ≤ s.dg.divider ∧ s.mode = .run ∧ s.ss.stop = false) := by
  unfold State.AtRest; decide +kernel

/-- The bridge of the yard in motion from position 1 to 0 or from 0 on. -/
def turning (st : BridgeState) (pos : Option Nat) (n : Nat) : State := { yard with
  tu := { yard.tu with
    state := st, position := pos, faceA := none, rate := 100, stepDue := some 40000, rateDue := some 40000
    move := if pos = none then none
      else some { target := 10, road := 1, bridgeEnd := .a, dir := .cw, toGo := n, origin := .link } } }

theorem test_hyps_TheBridgeMovesByR128ToR135 :
    (yard.Ready ∧ yard.tu.bridge = some {} ∧ Table.find yard.tu.roads 1 = some { position := 10 } ∧
      yard.tu.state = .aligned ∧ yard.tu.locks = [] ∧ yard.carriagePasses = true ∧ yard.tu.position = some 0) ∧
    (turning .homing none 0).tu.state = .homing ∧
    ((turning .moving (some 3) 7).tu.state = .moving ∧ (turning .moving (some 3) 7).tu.position = some 3) := by
  unfold State.Ready State.AtRest; decide +kernel

theorem test_hyps_StepsRatesAndEdgesFollowR132AndR136 :
    (turning .homing none 0).AtRest ∧ (turning .moving (some 9) 1).AtRest ∧ (turning .stopping (some 3199) 8).AtRest ∧
    yard.AtRest ∧ (turning .moving (some 9) 1).tu.move =
      some { target := 10, road := 1, bridgeEnd := .a, dir := .cw, toGo := 1, origin := .link } ∧
    after (exec .bridgeStep (turning .moving (some 9) 1)) (fun t => decide (t.tu.state = .aligned ∧ t.tu.faceA = some 1))
      = true ∧
    after (exec .thomeEdge (turning .stopping (some 3199) 8)) (fun t => decide (t.tu.position = some 0 ∧
      t.tu.move.map (fun m => m.toGo) = some 7)) = true ∧
    after (exec .thomeEdge (turning .moving (some 33) 8)) (fun t => decide (t.tu.state = .fault)) = true := by
  unfold State.AtRest; decide +kernel

theorem test_hyps_ShowsFollowR142AndR143 :
    manned.Ready ∧ lent.Ready ∧ lent.AtRest ∧
    (lent.show? 0).map (fun w => (w.state, w.phase, w.legTimer, w.dwellTimer)) =
      some (.running, .dwell, some 6, some 7) ∧
    after (exec (.showAbort 0) lent) (fun t => replied t == some (.ok (.show 0 .cooling))) = true ∧
    after (exec (.legTimerExpiry 0) lent) (fun t =>
      decide ((t.show? 0).map (fun w => w.state) = some .cooling)) = true := by
  unfold State.Ready State.AtRest; decide +kernel

theorem test_hyps_PanelAndBoardLinesShowTheState :
    calm.Ready ∧ calm.AtRest ∧ ((calm.board 4).line 4).acked ≠ some (calm.composeLine ((calm.board 4).line 4).source) ∧
    yard.section? 3 ≠ none ∧ yard.section? 4 = none := by
  unfold State.Ready State.AtRest; decide +kernel

theorem test_hyps_TheBoardLinkFollowsR147AndR148 :
    (let s : State := { calm with vu := { link := .sending (.line 1 4 [] false) } }
     s.AtRest) ∧
    (calm.AtRest ∧ calm.vu.link = .awaiting (.probe 1) 80000) ∧
    (let s : State := { calm with vu := { calm.vu with boards := calm.vu.boards.map fun r =>
        { r with probeTimer := some 9, probeDue := false } } }
     s.AtRest ∧ (s.board 4).probeTimer = some 9) ∧
    (State.reset.vu.link = .idle ∧ State.reset.dueProbe = some 1) := by
  unfold State.AtRest; decide +kernel

theorem test_hyps_TheSequencerFollowsR25ToR30 :
    calm.Ready ∧ calm.fc.seq = .chReset ∧ yard.AtRest ∧ yard.fc.seq ≠ .chReset ∧
    (let s : State := { calm with fc := { seq := .enumerate, modules := [(0, {})] } }
     s.AtRest ∧ s.chainLength = 1 ∧ readWord (Config.identityHead ++ Config.identityType .general) = .identity .general ∧
     readWord (List.replicate 48 false) = .neither ∧ readWord Config.tailPattern = .marker) ∧
    (let s : State := { calm with fc := { seq := .halted, retryTimer := some 5 } }
     s.AtRest) ∧
    (let s : State := { yard with fc := { yard.fc with scanTimer := some 5 } }
     s.AtRest ∧ s.fc.seq = .idle) := by
  unfold State.Ready State.AtRest; decide +kernel

theorem test_hyps_ImagesEnableOnlyWhatTheyMay :
    (let s : State := { yard with fc := { yard.fc with
        modeInForce := .lampTest
        terminals := [(0, { role := .detect 0 }), (1, { role := .coil 0 .n, direction := .drive })] } }
     (s.terminal (termOfKey 0)).role.isSense = true ∧ (s.terminal (termOfKey 1)).role.isDrive = true ∧
     (s.terminal (termOfKey 2)).role = .off ∧ s.fc.modeInForce = .lampTest) := by decide +kernel

theorem test_hyps_ScansEndByR28AndR31ToR38 :
    (let s : State := { yard with fc := { yard.fc with seq := .shift, modules := [(0, { mismatches := 2 })] } }
     s.AtRest ∧ s.fc.seq = .shift ∧ Table.find s.fc.modules 0 = some { mismatches := 2 } ∧
     ((List.replicate 48 false ++ Config.tailPattern).drop (48 * s.chainLength) = Config.tailPattern)) ∧
    (let s : State := { yard with fc := { yard.fc with seq := .update } }
     s.AtRest ∧ s.fc.seq = .update) ∧ yard.AtRest ∧ yard.fc.seq ≠ .shift := by
  unfold State.AtRest; decide +kernel

theorem test_hyps_EmergencyStopStopsEveryBlock :
    manned.Ready ∧ manned.ss.stop = false ∧
    (let s : State := { yard with ss := { stop := true } }
     s.Ready ∧ s.FloatsByR109 ∧ s.ss.loop = .closed ∧ s.pressedButton = none) ∧
    (let s : State := { yard with ss := { stop := true, loop := .opened } }
     s.Ready ∧ s.AtRest ∧ s.ss.loop ≠ .closed) ∧
    (let s : State := { yard with
        ss := { stop := true }, fc := { yard.fc with terminals := [(0, { role := .stopButton })] } }
     s.Ready ∧ s.pressedButton = some ⟨0, 0⟩) := by
  unfold State.Ready State.AtRest State.FloatsByR109; decide +kernel

theorem test_hyps_TheCurrentImageOutlivesASave :
    calm.Ready ∧ calm.ss.save = none ∧
    (let b : StopStore := { bank1 := .image {} 65535 true, save := some { copy := {}, bank := 0, seq := 0 } }
     b.current = some (1, {}, 65535) ∧ b.bank0 = .blank ∧ (65535 + 1) % 65536 = 0 ∧ b.save ≠ none) := by
  unfold State.Ready State.AtRest; decide +kernel

theorem test_hyps_StartUpFollowsR161ToR163 :
    (calm.ss.bank0 = .blank ∧ calm.ss.bank1 = .blank ∧ calm.ss.save = none ∧ calm.powered = true) ∧
    (let i : Image := { boardSources := List.replicate 4 (List.replicate 4 .blank), autorun := true, speed := 9600 }
     let s : State := { calm with ss := { bank0 := .image i 0 true } }
     s.ss.abandon.current = some (0, i, 0) ∧ (∀ l ∈ i.boardSources, l.length = 4) ∧
     (∀ e ∈ i.terminals, e.2.role ≠ .stopButton) ∧ (loadImage i {}).validate = none) ∧
    (let i : Image := { boardSources := List.replicate 4 (List.replicate 4 .blank)
                        terminals := [(0, { role := .stopButton })] }
     ¬ (∀ e ∈ i.terminals, e.2.role ≠ .stopButton)) := by decide +kernel

/-! ## What the review of the statements asked for -/

theorem test_lines_sent :
    (TxLine.reply (.ok (.route 3 .set))).text = "OK ROUTE 3 SET".toList ∧
    (TxLine.reply (.no .locked (some (.sec 5)))).text = "NO LOCKED SECTION 5".toList ∧
    (TxLine.report (.turnDrift (-3))).text = "! TURN DRIFT -3".toList ∧
    TxLine.owedFull.bytes = [78, 79, 32, 70, 85, 76, 76, 13, 10] := by decide +kernel

theorem test_long_numbers_come_first :
    after (exec (.define "SECTION".toList (.num 3) [("CLEAR-DELAY".toList, "123456".toList)]) yard) (fun t =>
      replied t == some (.no .range none)) = true ∧
    after (exec (.setup [("FOO".toList, "1".toList), ("RECHARGE".toList, "123456".toList)]) yard) (fun t =>
      replied t == some (.no .range none)) = true := by decide +kernel

theorem test_enumeration_at_forty :
    after (exec (.enumerationWord (Config.identityHead ++ Config.identityType .general))
      { calm with fc := { seq := .enumerate, found := 40 } }) (fun t =>
        decide (t.fc.seq = .halted ∧ t.fc.found = 40 ∧ t.fc.lastFault = some (.enum 0))) = true ∧
    ({ seq := .enumerate } : Chain).cout.take 16 = Config.tailPattern ∧
    ({ seq := .enumerate, enumCount := 1 } : Chain).cout = List.replicate 48 false := by decide +kernel

theorem test_hyps_HostLines_asCharacters :
    (let s : State := { calm with hl := { line := some { chars := "ESTOP".toList } } }
     s.Ready ∧ s.hl.rxBreak = false ∧
     after (exec (.characterReceived 13 false) s) (fun t => t.ss.stop && replied t == some (.ok .estop)) = true) ∧
    (let s : State := { calm with hl := { line := some { fault := some .late } } }
     s.Ready ∧ after (exec (.characterReceived 13 false) s) (fun t => replied t == some (.no .late none)) = true) := by
  unfold State.Ready State.AtRest; decide +kernel

/-- Route 0 over sections 0, 1 and 2, its overlap section 3, OCCUPIED by train 0, whose list is as given. -/
def under (list : List Nat) : State := { yard with
  sections := yard.sections.map fun e => (e.1, { e.2 with lock := some 0 })
  ix := { yard.ix with routes := [(0, {
    cfg := { entry := some 0, path := [0, 1, 2], overlap := [3], points := [(0, .n)] }
    state := .occupied, train := some 0, passed := [0, 1, 2], overlapReleased := true })] }
  tt := { trains := [(0, { cfg := { tag := some "A1".toList }, state := .active
                           list := list.map fun x => { sec := x, exit := .b, entry := .a } })] } }

/-- R71 and R73 with the train in section 2; R72 with it in section 1; R74 and R75 with it gone. -/
theorem test_hyps_sectionalReleases :
    (under [2]).tablesWf = true ∧ (under [2]).active 0 = true ∧
    (judgeReleases none 0 (under [2])).lockedSections 0 = [0, 2] ∧
    (judgeReleases none 0 (under [1])).lockedSections 0 = [1] ∧
    (judgeReleases (some 2) 0 (under [])).lockedSections 0 = [] ∧
    ((judgeReleases none 0 (under [])).route? 0).map (fun q => q.state) = some .idle ∧
    (let s := under [] ; let t : State := { s with tt := { trains := Table.update s.tt.trains 0 fun t =>
        { t with state := .lost } } }
     t.active 0 = false ∧ judgeReleases none 0 t = t) ∧
    (let s := (under []).setRoute 0 fun q => { q with leaving := true }
     s.lockOf 1 = some 0 ∧ (ixClear 1 s).lockOf 1 = none) ∧
    (under [2]).routesOf 0 = [0] ∧ (ixTrainGone 0 (under [2])).lockedSections 0 = [] ∧
    (let s := under [1] |>.setRoute 0 fun q => { q with cfg := { q.cfg with path := [0, 2], flanks := [(0, .n)] } }
     let t := s.setPoint 0 fun p => { p with locks := [0] }
     let u := t.setRoute 0 fun q => { q with cfg := { q.cfg with overlap := [1] }, overlapReleased := false }
     u.tablesWf = true ∧ (u.route? 0).map (fun q => (decide q.cfg.path.Nodup, q.cfg.path.getLast?)) = some (true, some 2) ∧
     u.inList 0 2 = false ∧ u.inList 0 1 = true ∧ u.lockOf 2 = some 0 ∧
     ((judgeReleases none 0 u).point? 0).map (fun p => p.locks) = some []) := by decide +kernel

theorem test_hyps_routeBecomesOccupied :
    (let s : State := { held .set none with tt := { trains := Table.update manned.tt.trains 0 fun t =>
        { t with list := t.list ++ [{ sec := 1, exit := .b, entry := .a }] } } }
     s.tablesWf = true ∧ s.active 0 = true ∧ s.inList 0 1 = true ∧ s.lockOf 1 = some 0 ∧
     ((ixAppend 0 1 (some { sec := 0, exit := .b, entry := .a }) s).route? 0).map (fun q =>
       (q.state, q.train, q.passed)) = some (.occupied, some 0, [1])) := by decide +kernel

theorem test_hyps_approachHolds :
    (let s : State := { held .set none with ix := { (held .set none).ix with routes := [(0, { way with
        cfg := { way.cfg with approach := [0], approachRelease := 30 }, state := .set })] } }
     s.Ready ∧ after (exec (.routeCan 0) s) (fun t => replied t == some (.ok (.route 0 .cancelPending)) &&
       decide ((t.route? 0).map (fun q => q.approachTimer) = some (some 120000000))) = true) := by
  unfold State.Ready State.AtRest; decide +kernel

/-- Two trains at the two ends of section 1, which is OCCUPIED, with their current steps. -/
def facing (c d : Nat) : State := { yard with
  sections := [(0, { cfg := { endB := .sectionEnd 1 .a } }),
    (1, { cfg := { endA := .sectionEnd 0 .b, endB := .sectionEnd 4 .a }, occupied := true }),
    (4, { cfg := { endA := .sectionEnd 1 .b } })]
  tt := { trains := [
    (0, { cfg := { tag := some [] }, state := .active, current := c, list := [{ sec := 0, exit := .b, entry := .a }] }),
    (1, { cfg := { tag := some [] }, state := .active, current := d, list := [{ sec := 4, exit := .a, entry := .b }] })] } }

theorem test_hyps_trackerClaims :
    (facing 5 0).tablesWf = true ∧ (facing 5 0).holder 1 = none ∧
    ((trackOccupied 1 [(0, .stop)] (facing 5 0)).train? 0).map (fun t => (t.list.map (fun e => e.sec), t.passedStop)) =
      some ([0, 1], true) ∧
    ((trackOccupied 1 [(0, .caution)] (facing 5 0)).train? 0).map (fun t => (t.cap, t.passedStop)) =
      some (some 40, false) ∧
    ((trackOccupied 1 [] (facing 5 5)).tt.trains.map fun t => t.2.ambiguity) = [some 1, some 1] ∧
    (let s := trackOccupied 1 [] (facing 5 5)
     after (exec (.trainRelease 1) { s with agenda := [] }) (fun t => decide (t.holder 1 = some 1)) = true) ∧
    (let s := trackOccupied 1 [] (facing 5 0)
     s.holder 1 = some 0 ∧ (trackClear 0 s).listOf 0 = [{ sec := 1, exit := .b, entry := .a }]) := by
  decide +kernel

/-- Train 0, its list full, whose tail in section 2 is the last of route 1, OCCUPIED by it; train 1 is marked STARTED for
that route; section 1, which train 0 moves to, is OCCUPIED. -/
def full : State := { facing 5 0 with
  sections := (facing 5 0).sections.map (fun e => if e.1 = 4 then (2, { lock := some 1 }) else e)
  ix := { routes := [(1, { cfg := { path := [2] }, state := .occupied, train := some 0, passed := [2] })] }
  tt := { trains := [
    (0, { cfg := { tag := some [] }, state := .active, current := 5
          list := [2, 5, 6, 7, 8, 0].map fun x => { sec := x, exit := .b, entry := .a } }),
    (1, { cfg := { tag := some [], runList := [1] }, mark := .started, ambiguity := some 1 })] } }

theorem test_hyps_claimsDropTheTail :
    full.tablesWf = true ∧ full.fc.condition = .healthy ∧ full.holder 1 = none ∧ (full.listOf 0).length = 6 ∧
    (let u := trackOccupied 1 [] full
     (u.listOf 0).map (fun e => (e.sec, e.exit)) = [(5, .b), (6, .b), (7, .b), (8, .b), (0, .b), (1, .b)] ∧
     (u.train? 1).map (fun t => (t.mark, t.ambiguity)) = some (.none, none) ∧ Notice.routeChange 1 .idle ∈ u.agenda ∧
     Report.trainLong 0 2 ∈ u.hl.reports) ∧
    (let s := full.setTrain 0 fun t => { t with ambiguity := some 1 }
     ((resolveAmbiguity 0 1 s).listOf 0).map (fun e => e.sec) = [5, 6, 7, 8, 0, 1]) := by decide +kernel

theorem test_hyps_trackerFindsTheLost :
    (let lost : TrainRec := { state := .lost, remembered := some { sec := 0, exit := .b, entry := .a } }
     let s : State := { facing 0 0 with tt := { trains := [(0, lost)] } }
     s.beside 0 lost = true ∧ s.beside 1 lost = true ∧ s.beside 4 lost = false ∧
     (trackOccupied 0 [] s).listOf 0 = [{ sec := 0, exit := .b, entry := .a }] ∧
     (trackOccupied 1 [] s).listOf 0 = [{ sec := 1, exit := .b, entry := .a }] ∧
     ((trackOccupied 1 [] s).train? 0).map (fun t => t.passedStop) = some true ∧
     trackOccupied 4 [] s = s.report (.trainStray 4)) := by decide +kernel

theorem test_hyps_runLists :
    (let s : State := { manned with tt := { trains := Table.update manned.tt.trains 0 fun t =>
        { t with cfg := { t.cfg with runList := [0], runMode := .loop } } } }
     ((placement 0 s).train? 0).map (fun t => t.mark) = some .started ∧
     ((placement 0 { s with ss := { stop := true } }).train? 0).map (fun t => t.mark) = some .queued ∧
     ((placement 0 (s.setRoute 0 fun q => { q with state := .set })).train? 0).map (fun t => t.mark) = some .deferred ∧
     ((ttRouteChange 0 .occupied (s.setRoute 0 fun q => { q with state := .occupied, train := some 0 })).train? 0).map
       (fun t => (t.mark, t.cfg.runList)) = some (.none, [0]) ∧
     Notice.placement 0 ∈ (ttRouteChange 0 .idle (s.setTrain 0 fun t => { t with mark := .deferred })).agenda) := by
  decide +kernel

theorem test_hyps_showsStart :
    (let w : ShowRec := { state := .ready, cfg := { train := some 0, enabled := true, legs := [{ route := some 0, step := 40 }] } }
     let s : State := { manned with vu := { manned.vu with shows := [(0, w)] } }
     (pressShow 0 s).vu.waiting = [0] ∧
     ((judgeStart (pressShow 0 s)).show? 0).map (fun w => (w.state, w.phase, w.legTimer)) =
       some (.running, .run, some 480000000) ∧
     ((judgeStart (pressShow 0 s)).train? 0).map (fun t => (t.driver, t.demand)) = some (.show 0, 40)) := by
  decide +kernel

theorem test_hyps_coolDown :
    (let w : ShowRec := { state := .cooling, coolTimer := some 9, cfg := { train := some 0, enabled := true } }
     let s : State := { manned with vu := { manned.vu with shows := [(0, w)] } }
     s.AtRest ∧ after (exec (.coolDownTimerExpiry 0) s) (fun t =>
       decide ((t.show? 0).map (fun w => w.state) = some .ready)) = true) := by
  unfold State.AtRest; decide +kernel

theorem test_hyps_ticksInConfigAndUnderStop :
    (let s : State := { bench with dg := { bench.dg with divider := 200 } }
     s.AtRest ∧ s.tablesWf = true ∧ s.mode = .config) ∧
    (let s : State := { manned with ss := { stop := true }, dg := { manned.dg with divider := 200 } }
     s.AtRest ∧ s.tablesWf = true ∧ s.mode = .run ∧ s.ss.stop = true ∧
     after (exec .governorTick s) (fun t => decide ((t.dg.channels.map fun c => c.lastTrains.length).head? = some 1))
       = true) := by
  unfold State.AtRest; decide +kernel

theorem test_hyps_lookAhead :
    (manned.train? 0).map manned.lookAhead = some (some 0) ∧
    (let s : State := { manned with ix := { manned.ix with signals := [(0, { cfg := { location := some (1, .b) } })] } }
     s.signalAt 0 .b = none ∧ (s.train? 0).map s.lookAhead = some (some 40)) := by decide +kernel

theorem test_hyps_drifts :
    (turning .moving (some 2) 8).AtRest ∧ (turning .moving (some 3) 8).AtRest ∧ (turning .moving (some 32) 8).AtRest ∧
    after (exec .thomeEdge (turning .moving (some 2) 8)) (fun t => decide (t.tu.position = some 0) && t.hl.tx.isNone)
      = true ∧
    after (exec .thomeEdge (turning .moving (some 3) 8)) (fun t =>
      decide (t.hl.tx = some (.report (.turnDrift 3)))) = true ∧
    after (exec .thomeEdge (turning .moving (some 32) 8)) (fun t => decide (t.tu.state = .moving ∧
      t.tu.move.map (fun m => m.toGo) = some 40)) = true := by
  unfold State.AtRest; decide +kernel

theorem test_hyps_restReports :
    (restAt 10 (turning .moving (some 9) 1)).hl.reports = [.turnAligned 1 .a] ∧
    (restAt 0 (turning .stopping (some 0) 10)).hl.reports = [.turnAligned 0 .a] ∧
    (restAt 7 (turning .stopping (some 7) 3)).hl.reports = [.turnStopped 7] ∧
    yard.aloneOnBridge = none ∧
    ({ manned with tt := { trains := [(0, { state := .active, list := [{ sec := 3, exit := .b, entry := .a }] })] } }
      : State).aloneOnBridge = some 0 := by decide +kernel

theorem test_hyps_saveSparesCurrent :
    State.reset.SaveSparesCurrent ∧
    after (exec .save calm) (fun t => decide (t.ss.save.map (fun j => (j.bank, j.seq)) = some (0, 0) ∧
      t.ss.bank0 = .blank ∧ t.ss.current = none)) = true :=
  ⟨fun _ h => (nomatch h), by decide +kernel⟩

theorem test_hyps_imagesAndCells :
    (let s : State := { yard with fc := { yard.fc with modules := [(0, { health := .faulty }), (1, {})] } }
     s.chainLength = 2 ∧ s.composeImage.length = 2 ∧ (s.composeImage[0]?).bind (fun i => i[15]?) =
       some (s.cellsOf 15 false)) := by decide +kernel

/-! ## What the second review of the statements asked for -/

theorem test_signed_numbers_keep_the_order_of_R10 :
    (parseLine "DEF TERMINAL 3.-1 ROLE=OFF".toList).toOption =
      some (.define "TERMINAL".toList .other [("ROLE".toList, "OFF".toList)]) ∧
    after (exec (.define "TERMINAL".toList .other [("ROLE".toList, "OFF".toList)]) yard) (fun t =>
      replied t == some (.no .mode none)) = true ∧
    after (exec (.define "TERMINAL".toList .other [("ROLE".toList, "OFF".toList)]) bench) (fun t =>
      replied t == some (.no .range none)) = true ∧
    (parseLine "TELL +FOO 5".toList).toOption = none ∧
    (parseLine "TELL +FOO SEC".toList).toOption = none ∧
    (parseLine "TELL +FOO".toList).toOption = some (.tell [.enable none]) := by decide +kernel

/-- The yard with both its roads at section ends, route 0 reaching a buffer, and point 0 with nothing to name it. -/
def sound : State := { yard with
  sections := [(0, { cfg := { endB := .sectionEnd 1 .a, channel := some 0, platform := some 1 } }),
    (1, { cfg := { endA := .sectionEnd 0 .b, channel := some 0 } }),
    (2, { cfg := { endA := .turntable } }),
    (3, { cfg := { kind := .bridge, endA := .turntable, endB := .turntable, channel := some 5 } })]
  pu := { supply := .ready }
  tu := { yard.tu with roads := [(0, { sec := some 2 })] } }

theorem test_hyps_checks :
    sound.tablesWf = true ∧ sound.validate = none ∧ (∃ b, (sound.sections.filter fun e => e.2.cfg.kind == .bridge) = [b]) ∧
    ({ yard with pu := {} } : State).checkTopology = some (.sec 2) ∧ yard.checkTurntable = some (.sec 3) ∧
    ({ sound with tu := { sound.tu with bridge := none } } : State).checkTurntable = some .turntable ∧
    ({ sound with tu := { sound.tu with roads := [(0, { sec := some 1 })] } } : State).checkTurntable = some (.road 0) ∧
    ({ sound with tu := {}, sections := sound.sections.take 2 } : State).checkTurntable = none ∧
    (sound.setRoute 0 fun q => { q with cfg := { q.cfg with path := [1, 1] } }).checkPath = some (.route 0) ∧
    ({ sound with fc := { sound.fc with modules := [(0, {})], terminals := [(0, { role := .detect 0 })] } }
      : State).checkRole = some (.terminal ⟨0, 0⟩) := by
  refine ⟨by decide +kernel, by decide +kernel, ⟨_, rfl⟩, ?_⟩
  decide +kernel

theorem test_hyps_resolution :
    sound.tablesWf = true ∧ sound.bridgeSection = some 3 ∧ sound.nearBridge 2 = true ∧ sound.nearBridge 0 = false ∧
    sound.across 0 .b = some (1, .a) ∧ sound.across 2 .a = some (3, .a) ∧ sound.across 3 .a = some (2, .a) ∧
    sound.across 3 .b = none ∧ sound.far 3 .a = some .b ∧
    sound.facings { bridge := some (0, .b) } = (none, some 0) ∧
    (let st : Stated := { points := [(0, .r)] }
     yard.farEnd st 2 .toe = some .reverse ∧ yard.farEnd {} 2 .toe = some .normal) := by decide +kernel

/-- Point 0 with its two detection terminals, of which those in `ts` are present. -/
def detected (ts : List Nat) (r : PointRec) : State := { yard with
  fc := { yard.fc with
    terminals := [(0, { role := .pointDet 0 .n }), (1, { role := .pointDet 0 .r })]
    live := ts.map fun k => (k, { handed := some true }) }
  pu := { yard.pu with points := [(0, { r with cfg := { detN := some ⟨0, 0⟩, detR := some ⟨0, 1⟩ } })] } }

theorem test_hyps_detection :
    (let at_ := fun (ts : List Nat) (r : PointRec) => ((refreshPoint 0 (detected ts r)).point? 0).map fun q =>
       (q.position, q.commanded, q.phase)
     at_ [0] {} = some (.normal, some .n, .atRest) ∧
     at_ [1] { position := .failed, commanded := some .r } = some (.reverse, some .r, .atRest) ∧
     at_ [] { position := .normal, commanded := some .n, reading := .n } = some (.unknown, some .n, .atRest) ∧
     at_ [1] { position := .movingR, commanded := some .r, phase := .awaiting } = some (.reverse, some .r, .atRest) ∧
     at_ [0, 1] { position := .movingR, commanded := some .r, phase := .awaiting } =
       some (.movingR, some .r, .awaiting)) ∧
    refreshPoint 0 (detected [0] { reading := .n }) = detected [0] { reading := .n } ∧
    refreshSection 0 (manned.setSection 0 fun q => { q with occupied := false }) =
      manned.setSection 0 fun q => { q with occupied := false } := by decide +kernel

theorem test_hyps_handOver :
    (let s := detected [] {}
     let once := qualifyTerminal 1 (List.replicate 64 false) 0 s
     let twice := qualifyTerminal 1 (List.replicate 64 false) 0 once
     (once.termLive ⟨0, 0⟩).handed = none ∧ (twice.termLive ⟨0, 0⟩).qualified = some true ∧
     (twice.termLive ⟨0, 0⟩).handed = some true ∧ (twice.point? 0).map (fun p => p.position) = some .normal) ∧
    (let s := detected [] {}
     let settling : State := { s with fc := { s.fc with
       condition := .settling, live := [(0, { qualified := some true }), (1, { qualified := some false })] } }
     let done := settlingComplete settling
     done.fc.condition = .healthy ∧ (done.termLive ⟨0, 0⟩).handed = some true ∧
     (done.termLive ⟨0, 1⟩).handed = some false ∧ (done.point? 0).map (fun p => p.position) = some .normal) := by
  decide +kernel

theorem test_hyps_routeTimers :
    (let s : State := held .occupied (some 0)
     let on := (s.setRoute 0 fun q => { q with dwellTimer := none }).setTrain 0 fun t => { t with list := t.list ++ [{ sec := 1, exit := .b, entry := .a }] }
     ((startOverlap 0 1 s).route? 0).map (fun q => (q.overlapStarted, q.overlapTimer)) =
       some (true, some (s.now + 40000000)) ∧
     startOverlap 0 0 s = s ∧
     ((judgeDwell 0 on).route? 0).map (fun q => q.dwellTimer) = some (some (s.now + 8000000)) ∧
     ((judgeDwell 0 (s.setRoute 0 fun q => { q with dwellTimer := some 1 })).route? 0).map (fun q => q.dwellTimer) =
       some none) := by decide +kernel

theorem test_hyps_facingAndMoves :
    Table.wf yard.tu.roads = true ∧ facedRoad 3200 yard.tu.roads 10 .a = some 1 ∧
    facedRoad 3200 yard.tu.roads 1600 .b = some 0 ∧ facedRoad 3200 yard.tu.roads 11 .a = none ∧
    moveRefusal yard 24 .a .link = some (.range, none) ∧ moveRefusal yard 5 .a .link = some (.unknown, none) ∧
    moveRefusal yard 1 .b .link = none ∧
    moveRefusal { yard with tu := { yard.tu with locks := [0] } } 1 .b (.show 0) = some (.locked, some .turntable) ∧
    moveRefusal { yard with ss := { stop := true } } 1 .b (.route 0) = some (.stopped, none) := by decide +kernel

theorem test_hyps_legsEnd :
    (let w : ShowRec := { state := .running, phase := .run, cfg := { train := some 0, legs := [{ route := some 0 }] } }
     let s : State := { manned with
       vu := { manned.vu with shows := [(0, w)] }
       tt := { trains := Table.update manned.tt.trains 0 fun t => { t with
         driver := .show 0, list := t.list ++ [{ sec := 1, exit := .b, entry := .a }] } } }
     ((judgeArrival 0 0 s).show? 0).map (fun w => (w.phase, w.dwellTimer)) = some (.dwell, some 40000000) ∧
     judgeArrival 0 0 (s.setTrain 0 fun t => { t with current := 1 }) = s.setTrain 0 (fun t => { t with current := 1 }) ∧
     ((completeShow 0 w s).show? 0).map (fun w => w.state) = some .cooling ∧
     ((completeShow 0 w s).train? 0).map (fun t => t.driver) = some .link ∧
     Report.showAbort 0 .turn ∈ (vuMoveEnded 0 .fault (s.setShow 0 fun w => { w with phase := .turn })).hl.reports ∧
     ((vuMoveEnded 0 .atTarget (s.setShow 0 fun w => { w with phase := .turn })).show? 0).map (fun w => w.state) =
       some .cooling ∧
     vuMoveEnded 0 .fault s = s) := by decide +kernel

/-- The routes of a removed train become IDLE and its show sets one of them again, before it is told of the removal
(log 75); its abort leaves the train as the removal did (R94, R143). -/
theorem test_aRemovedTrainKeepsItsDemand :
    (let w : ShowRec := { state := .running, storePending := true
                          cfg := { train := some 0, legs := [{ route := some 0, step := 40 }] } }
     let s : State := { held .occupied (some 0) with vu := { manned.vu with shows := [(0, w)] } }
     after (exec (.trainRemove 0) (s.setTrain 0 fun t => { t with driver := .show 0, showWait := true })) (fun t =>
       (t.train? 0).map (fun a => (a.state, a.driver, a.demand, a.showWait)) == some (.unplaced, .link, 0, false) &&
       (t.show? 0).map (fun w => w.state) == some .cooling && (t.route? 0).map (fun q => q.state) == some .set &&
       t.hl.reports.contains (.showAbort 0 .removed)) = true) := by decide +kernel

theorem test_hyps_theStopStays :
    (let s : State := { manned with ss := { stop := true } }
     s.AtRest ∧ s.ss.stop = true ∧ after (exec .chainReset s) (fun t => t.ss.stop) = true ∧ s.hl.buffer = [] ∧
     s.hl.line = none) := by
  unfold State.AtRest; decide +kernel

theorem test_hyps_theOldestEntry :
    (let s : State := { calm with vu := { link := .idle, boardQueue := [(1, 1), (2, 1), (2, 2)]
                                          boards := [{ probeDue := false }, { probeDue := false, online := true },
                                            { probeDue := false }, { probeDue := false }] } }
     s.dueProbe = none ∧ (chooseTransfer s).vu.link = .sending (.line 2 1 (s.composeLine .blank) false) ∧
     ({ s with vu := { s.vu with boards := s.vu.boards.map fun b => { b with online := false } } } : State).vu.link = .idle ∧
     ({ s with vu := { s.vu with boards := [{}, {}] } } : State).dueProbe = some 1) := by decide +kernel

/-! ## What the third review of the statements asked for -/

theorem test_numbered_lines :
    (parseLine "GET TERMINAL 3.15".toList).toOption = some (.getTerminal 3 15) ∧
    (parseLine "TRAIN 4 PLACE 17 DIR TOE".toList).toOption = some (.trainPlace 4 17 (some .toe)) ∧
    (parseLine "TRAIN 31 RUNLIST LOOP 1 99999".toList).toOption = some (.trainRunlist 31 .loop [1, 99999]) ∧
    (parseLine "TURN 14 A CCW".toList).toOption = some (.turn 14 (some .a) (some .ccw)) ∧
    (parseLine "CHAN 0 FORCE FULL-NEG".toList).toOption = some (.chanForce 0 (some .fullNeg)) ∧
    (parseLine "BOARD 1 4 \"HI THERE\"".toList).toOption = some (.boardText 1 4 "HI THERE".toList) ∧
    (parseLine "BAUD 230400".toList).toOption = some (.baud 230400) := by decide +kernel

/-- Three throws wait with the supply READY: the oldest is dropped, section 2 being OCCUPIED or a lock set requiring the
other position, and the next pulses. -/
def thrown (occupied : Bool) (locks : List Nat) : State := { yard with
  sections := Table.update yard.sections 2 fun r => { r with occupied := occupied }
  ix := { yard.ix with routes := [(0, { cfg := { points := [(0, .r)] } })] }
  pu := { supply := .ready, queue := [(0, .n), (1, .r), (2, .n)]
          points := [(0, { phase := .queued, commanded := some .n, position := .movingN, locks := locks }),
            (1, { phase := .queued, commanded := some .r, position := .movingR }), (2, { phase := .queued })] } }

theorem test_hyps_oldestThrowFirst :
    (considerPulse (thrown false [])).pu.queue = [(1, .r), (2, .n)] ∧
    ((considerPulse (thrown false [])).point? 0).map (fun r => r.phase) = some .pulsing ∧
    (let t := considerPulse (thrown true [])
     t.hl.reports = [.pointDropped 0 .occ] ∧ t.pu.queue = [(2, .n)] ∧ Notice.pointChange 0 .dropped ∈ t.agenda ∧
     (t.point? 0).map (fun r => (r.position, r.commanded, r.phase)) = some (.unknown, none, .atRest) ∧
     (t.point? 1).map (fun r => r.phase) = some .pulsing) ∧
    (considerPulse (thrown false [0])).hl.reports = [.pointDropped 0 .lock] := by decide +kernel

theorem test_hyps_faultReports :
    (enterHalted .tail yard).hl.reports = [.chainFault .tail] ∧
    (let s : State := { yard with fc := { yard.fc with lastFault := some .tail } }
     (enterHalted .tail s).hl.reports = [] ∧ (enterHalted (.enum 0) s).hl.reports = [.chainFault (.enum 0)]) ∧
    (chainReset yard).hl.reports = [.chainCondition .down] := by decide +kernel

theorem test_hyps_entryToConfig :
    (let s : State := { manned with
       tt := { trains := Table.update manned.tt.trains 0 fun t => { t with demand := 9, passedStop := true } }
       ix := { manned.ix with requests := [{ route := 0, origin := .link, expiry := none }] }
       pu := { manned.pu with queue := [(0, .r)], supply := .recharging 9
                              points := [(0, { position := .normal }), (1, { phase := .awaiting, commanded := some .n
                                                                             detTimer := some 7 })] }
       dg := { manned.dg with fallen := [0] }
       vu := { manned.vu with shows := [(0, { state := .running, cfg := { train := some 0 } })] } }
     let t := (cmdModeConfig s).1
     s.Ready ∧ s.agenda = [] ∧ s.mode = .run ∧ s.ss.save = none ∧ s.tu.state ≠ .moving ∧
     (∀ x ∈ s.ix.routes, x.2.state = .idle) ∧
     (∀ x ∈ s.tt.trains, x.2.current = 0) ∧ (∀ e ∈ s.fc.terminals, e.2.role ≠ .stopButton) ∧
     s.readingNow 1 {} = .neither ∧
     t.hl.reports = [.routeDropped 0 .mode, .trainUnplaced 0, .showAbort 0 .mode, .chainCondition .down, .sysMode .config] ∧
     t.pu = s.pu ∧ t.tu = s.tu ∧ t.dg.fallen = []) := by
  unfold State.Ready State.AtRest; decide +kernel

theorem test_hyps_startUps :
    (let i : Image := { boardSources := List.replicate 4 (List.replicate 4 .blank), autorun := true, speed := 9600 }
     let s : State := { calm with ss := { bank0 := .image i 0 true } }
     after (exec (.powerOn .opened) s) (fun t => t.ss.stop && decide (t.mode = .run) &&
       decide (t.hl.reports = [.sysEstop .loop, .sysMode .run, .sysStart .power])) = true ∧
     after (exec (.startUpSequence .closed) s) (fun t => decide (t.mode = .run ∧ t.hl.speed = 57600)) = true) ∧
    (let i : Image := { boardSources := List.replicate 4 (List.replicate 4 .blank), autorun := true
                        modules := [(0, .general)], terminals := [(3, { role := .stopButton })] }
     after (exec (.startUpSequence .closed) { calm with ss := { bank1 := .image i 0 true } }) (fun t => t.ss.stop &&
       decide (t.hl.reports = [.sysEstop (.button ⟨0, 3⟩), .sysMode .run, .sysStart .reset])) = true) ∧
    (let s : State := { calm with ss := { bank0 := .image {} 0 false } }
     s.ss.abandon.current = none ∧ after (exec (.powerOn .closed) s) (fun t =>
       decide (t.hl.reports = [.sysStoreBad, .sysStart .power])) = true) := by decide +kernel

/-! ## What the fourth review of the statements asked for -/

/-- Two lines wait in the buffer; the transmitter and the slot are as given. -/
def queued (tx : Option TxLine) (slot : Option Reply) (owed : Nat) : State := { calm with
  hl := { tx := tx, slot := slot, owed := owed, buffer := [.command .estop, .mark .late] } }

theorem test_hyps_theBufferIsTaken :
    (takeEntry (queued none none 0)).hl.buffer = [.mark .late] ∧
    (takeEntry (queued none none 0)).hl.slot = some (.ok .estop) ∧ (takeEntry (queued none none 0)).ss.stop = true ∧
    (let t := arbitrate (queued none none 0)
     (t.hl.tx, t.hl.slot, t.hl.buffer) = (some (.reply (.ok .estop)), some (.no .late none), [])) ∧
    (let t := arbitrate (queued none none 2)
     (t.hl.tx, t.hl.slot, t.hl.owed) = (some .owedFull, some (.ok .estop), 1)) ∧
    (let t := arbitrate (queued (some .owedFull) none 0)
     (t.hl.tx, t.hl.slot, t.hl.buffer) = (some .owedFull, some (.ok .estop), [.mark .late])) ∧
    (let t := arbitrate (queued none (some (.ok .bare)) 0)
     (t.hl.tx, t.hl.slot, t.hl.buffer) = (some (.reply (.ok .bare)), some (.ok .estop), [.mark .late])) ∧
    (let t := arbitrate (queued none (some (.ok .bare)) 1)
     (t.hl.tx, t.hl.slot, t.hl.buffer.length) = (some .owedFull, some (.ok .bare), 2)) ∧
    arbitrate (queued (some .owedFull) (some (.ok .bare)) 0) = queued (some .owedFull) (some (.ok .bare)) 0 ∧
    (let s : State := { calm with hl := { reports := [.sysBreak] } }
     (arbitrate s).hl.tx = some (.report .sysBreak)) := by decide +kernel

theorem test_hyps_framesAndLegs :
    (Frame.line 4 1 "AB".toList false).bytes = [2, 4, 1, 65, 66, 138] ∧ (Frame.probe 3).bytes = [2, 3, 0, 5] ∧
    ({ calm with vu := { link := .sending (.probe 1) } } : State).bdir = true ∧ calm.bdir = false ∧
    (let ch : Channel := { output := .driven, compare := 7, polarity := .neg }
     ch.legs 6 = (.low, .on) ∧ ch.legs 7 = (.low, .low) ∧ ({ ch with polarity := .pos } : Channel).legs 6 = (.on, .low) ∧
     ({ ch with output := .float } : Channel).legs 6 = (.highZ, .highZ)) ∧
    0 < yard.dg.period ∧ yard.dg.zeroAt ≤ yard.now ∧ yard.now < yard.dg.zeroAt + yard.dg.period := by decide +kernel

theorem test_hyps_ledRoutesAndLamps :
    yard.tablesWf = true ∧ yard.ledRoute 0 = none ∧
    (let s : State := { yard with ix := { yard.ix with routes := [(0, way), (2, { way with state := .set })] } }
     s.tablesWf = true ∧ s.ledRoute 0 = some 2 ∧ s.ledRoute 1 = none) ∧
    (let s : State := { yard with
       ix := { yard.ix with signals := [(0, { cfg := { location := some (0, .b), red := some ⟨0, 0⟩ } })] }
       vu := { yard.vu with shows := [(0, { state := .ready, cfg := { lamp := some ⟨0, 1⟩ } })] } }
     s.fc.modeInForce = .normal ∧ s.outputValue ⟨0, 0⟩ (.signalLamp 0 .red) = .on ∧
     s.outputValue ⟨0, 1⟩ (.signalLamp 0 .red) = .off ∧ s.outputValue ⟨0, 0⟩ (.signalLamp 1 .red) = .off ∧
     s.outputValue ⟨0, 1⟩ (.mimic (.showLamp 0)) = s.mimicValue (.showLamp 0) ∧ s.mimicValue (.showLamp 0) ≠ .off ∧
     s.outputValue ⟨0, 2⟩ (.mimic (.showLamp 0)) = .off) := by decide +kernel

/-- The yard whose route 0 requires point 0 and the bridge at road 1, in a state. -/
def bridged (pos : PointPos) (st : RouteState) : State := yard.setRoute 0 fun q => { q with
  state := st, cfg := { q.cfg with points := [(0, pos)], bridge := some (1, .a) } }

theorem test_hyps_settingAndProof :
    (bridged .n .idle).throwNeeded 0 .n = false ∧ (bridged .r .idle).throwNeeded 0 .r = true ∧
    (let t := enterSetting 0 { way.cfg with points := [(0, .r)], bridge := some (1, .a) } (bridged .r .idle)
     (t.point? 0).map (fun p => (p.phase, p.locks)) = some (.pulsing, [0]) ∧ t.tu.state = .moving ∧
     (t.route? 0).map (fun q => (q.state, q.asked)) = some (.setting, true)) ∧
    (yard.tu.bridge = some {} ∧ Table.find yard.tu.roads 1 = some { position := 10 } ∧ yard.tu.position = some 0 ∧
      (beginMove 1 .a none .link yard).2 = some .cw ∧ (beginMove 0 .a none .link yard).2 = none) ∧
    (let s : State := { bridged .n .setting with tu := { yard.tu with position := some 10, faceA := some 1 } }
     ((testProof 0 s).route? 0).map (fun q => q.state) = some .set) ∧
    testProof 0 (bridged .n .setting) = bridged .n .setting := by decide +kernel

theorem test_hyps_routesFail :
    (let s := (bridged .r .setting).setPoint 0 fun p => { p with locks := [0] }
     ((ixPoint 0 .dropped s).route? 0).map (fun q => q.state) = some .idle ∧
     Report.routeFailed 0 (.point 0) ∈ (ixPoint 0 .failed s).hl.reports ∧
     (ixPoint 0 .placed s).agenda = [.reexamine] ∧ ixPoint 1 .failed s = s) ∧
    (let s := bridged .n .setting
     Report.routeFailed 0 .bridge ∈ (ixMoveEnded 0 s).hl.reports ∧ ixMoveEnded 1 s = s ∧
     Report.routeFailed 0 .stop ∈ (routesStop s).hl.reports ∧
     Report.routeFailed 0 .bridge ∈ (ixBridge { s with tu := { s.tu with state := .fault } }).hl.reports ∧
     (ixBridge s).agenda = [.reexamine] ∧ ixBridge { s with tu := { s.tu with state := .moving } } =
       { s with tu := { s.tu with state := .moving } }) ∧
    failRoute 0 .timeout yard = yard := by decide +kernel

theorem test_hyps_theQueueIsVisited :
    (let s : State := { yard with ix := { yard.ix with requests := [⟨0, .train 0, none⟩, ⟨5, .link, none⟩] } }
     yard.route? 0 = some way ∧ s.route? 5 = none ∧ s.settable 0 way = none ∧
     (reexamine s).ix.requests = [⟨5, .link, none⟩] ∧ Notice.requestStarted (.train 0) 0 ∈ (reexamine s).agenda ∧
     ((reexamine s).route? 0).map (fun q => q.state) = some .set ∧
     (reexamine { s with ss := { stop := true } }).ix.requests = s.ix.requests) ∧
    (storeRequest 0 (.train 0) none yard).2 = .started ∧
    (storeRequest 0 (.train 0) none { yard with ss := { stop := true } }).2 = .queued := by decide +kernel

theorem test_hyps_theAgendaIsTaken :
    (let s : State := { yard with agenda := [.trackClear 9, .reexamine] }
     s.agenda = .trackClear 9 :: [.reexamine] ∧ (settle s).agenda = [] ∧
     (settleFrom 1 s).agenda = [.reexamine]) ∧
    (let s := manned.setSection 0 fun r => { r with occupied := false }
     judgeLost 0 s = s.setTrain 0 (fun t => { t with lostTimer := some 12000000 }) ∧ judgeLost 0 manned = manned) ∧
    (let s := manned.setTrain 0 fun t => { t with list := { sec := 1, exit := .b, entry := .a } :: t.list }
     ((trimList 6 0 s).train? 0).map (fun t => t.list.length) = some 1) ∧
    (let s : State := { yard with sections := Table.update yard.sections 1 fun r => { r with occupied := true } }
     (handle .resumption s).agenda = [.trackOccupied 1 s.aspects]) := by decide +kernel

theorem test_hyps_showsAreJudged :
    manned.show? 0 = some { cfg := { train := some 0 } } ∧
    ((judgeAvailable 0 manned).show? 0).map (fun w => w.state) = some .ready ∧ judgeAvailable 0 yard = yard ∧
    (let s := yard.setShow 0 fun w => { w with state := .ready }
     ((judgeAvailable 0 s).show? 0).map (fun w => w.state) = some .unavailable) ∧
    (let s := (manned.setShow 0 fun w => { w with state := .running, cfg := { w.cfg with legs := [{ route := some 0 }] } })
     let running := fun (t : State) => (t.show? 0).map fun w => (w.state, w.phase)
     running s = some (.running, .routeWait) ∧ running (showRoute 0 .set 0 s) = some (.running, .run) ∧
     running (showRoute 1 .set 0 s) = some (.running, .routeWait) ∧
     running (vuRouteFail 0 s) = some (.cooling, .routeWait) ∧
     running (vuRequestDropped 0 0 .can s) = some (.cooling, .routeWait) ∧
     running (vuTrainChange 0 .lost s) = some (.cooling, .routeWait)) := by decide +kernel

theorem test_hyps_scansCountModules :
    (let s : State := { yard with fc := { yard.fc with
       modules := [(0, { mismatches := 2 })], terminals := [(0, { role := .detect 0 }), (1, { role := .detect 90 })]
       latched := [[(true, true, false)]] } }
     s.tablesWf = true ∧ s.awaited = some 0 ∧ s.echoReference 0 = [(true, false)] ∧
     s.echoReference 1 = List.replicate 16 (false, false) ∧
     Table.find s.fc.modules 0 = some { mismatches := 2 } ∧
     pullEnable (returnedCells 1 0 (List.replicate 64 true)) ≠ s.echoReference 0 ∧
     Report.chainModule 0 .faulty ∈ (echoModule 1 (List.replicate 64 true) 0 s).hl.reports) ∧
    (let s : State := { yard with fc := { yard.fc with modules := [(0, { health := .faulty, matched := 2 })] } }
     s.awaited = none ∧ pullEnable (returnedCells 1 0 (List.replicate 64 false)) = s.echoReference 0 ∧
     (echoModule 1 (List.replicate 64 false) 0 s).hl.reports = [.chainModule 0 .healthy]) := by decide +kernel

theorem test_hyps_fields :
    sectionField .plain "SPEED-LIMIT".toList (digits 127) = .ok (fun c => { c with speedLimit := 127 }) ∧
    sectionField .plain "POINT".toList (digits 1) = .error .badForm ∧
    routeField "PATH".toList "1,128".toList = .error .range ∧
    readNumber "ABC".toList = none ∧ (∃ x, readNumber "-1".toList = some x ∧ x.negative = true) ∧
    Lamp.yellow ∉ ({} : SignalCfg).lamps ∧ Lamp.red ∈ ({} : SignalCfg).lamps ∧ '"' ∉ "A B".toList := by
  refine ⟨rfl, rfl, rfl, rfl, ⟨_, rfl, rfl⟩, ?_⟩
  decide

/-! ## What the fifth review of the statements asked for -/

theorem test_hyps_signalsFallAndReport :
    (let s : State := { yard with ix := { yard.ix with
       routes := [(0, { way with state := .set })], signals := yard.ix.signals.map fun e => (e.1, { e.2 with aspect := .caution }) } }
     let t := s.setRoute 0 fun q => { q with state := .idle }
     (s.signal? 0).map (fun r => r.aspect) = some .caution ∧ ((workOut s t).signal? 0).map (fun r => r.aspect) = some .stop ∧
     (workOut s t).hl.reports = [.signal 0 .stop] ∧ (workOut s t).dg.fallen = [0] ∧ (workOut yard yard).hl.reports = [] ∧
     (let u : State := { t with ss := { stop := true } }
      (workOut s u).hl.reports = [.signal 0 .stop] ∧ (workOut s u).dg.fallen = [])) := by decide +kernel

theorem test_hyps_theStopEmptiesTheThrowQueue :
    (let t := handle .stopPoints (thrown false [])
     t.pu.queue = [] ∧ t.hl.reports = [.pointDropped 0 .stop, .pointDropped 1 .stop, .pointDropped 2 .stop] ∧
     (t.point? 0).map (fun r => (r.position, r.commanded, r.phase)) = some (.unknown, none, .atRest) ∧
     Notice.pointChange 2 .dropped ∈ t.agenda) ∧
    (let q : Pulse := { point := 0, pos := .n, scans := 1, startedAt := 0 }
     let s : State := { yard with pu := { yard.pu with supply := .pulsing q } }
     (handle .stopPoints s).pu.supply = .pulsing { q with offAt := some s.fc.composed }) := by decide +kernel

theorem test_hyps_releasesWithdrawThrows :
    (let t := releaseToIdle 0 (thrown false [0])
     t.pu.queue = [(1, .r), (2, .n)] ∧ t.hl.reports = [.pointDropped 0 .cancel, .routeState 0 .idle] ∧
     (t.point? 0).map (fun r => (r.position, r.locks)) = some (.unknown, []) ∧
     t.agenda = [.pointChange 0 .withdrawn, .reexamine, .routeChange 0 .idle, .reexamine]) ∧
    (let t := dropRequest 0 .can (held .idle none)
     t.ix.requests = [] ∧ t.hl.reports = [.routeDropped 0 .can] ∧ t.agenda = [.requestDropped .link 0 .can]) ∧
    dropRequest 1 .can (held .idle none) = held .idle none := by decide +kernel

theorem test_hyps_trainsGoAndRoutesGiveUp :
    (let t := ixTrainGone 0 (under [2])
     (t.route? 0).map (fun q => q.state) = some .idle ∧ t.lockOf 0 = none ∧ t.lockOf 3 = none ∧
     Report.routeState 0 .idle ∈ t.hl.reports) ∧ ixTrainGone 1 (under [2]) = under [2] ∧
    (let s := (under [2]).setTrain 0 fun t => { t with passedStop := true }
     after (exec (.trainRemove 0) s) (fun t => t.lockOf 0 == none && t.hl.reports.contains (.trainUnplaced 0)
       && (t.train? 0).map (fun a => (a.state, a.list, a.passedStop)) == some (.unplaced, [], false)) = true) ∧
    (let s := manned.setTrain 0 fun _ => { cfg := { tag := some "A1".toList } }
     (s.train? 0).map (fun t => t.state) ≠ some .active ∧
     after (exec (.trainPlace 0 0 (some .b)) (s.setTrain 0 fun t => { t with state := .unplaced })) (fun t =>
       (t.train? 0).map (fun a => a.state) == some .active && (t.show? 0).map (fun w => w.state) == some .ready) = true) ∧
    changeHolds 0 (fun t => { t with cap := some 3 }) manned = manned.setTrain 0 (fun t => { t with cap := some 3 }) ∧
    (changeHolds 0 (fun t => { t with reversing := true }) manned).agenda = [.holdsChange 0] := by decide +kernel

theorem test_hyps_aReversalIsReported :
    (let t := completeReversal 0 (manned.setTrain 0 fun t => { t with reversing := true })
     t.hl.reports = [.trainReversed 0] ∧ t.agenda = [.holdsChange 0, .listChange 0, .placement 0] ∧
     (t.train? 0).map (fun a => (a.reversing, a.list)) = some (false, [{ sec := 0, exit := .a, entry := .b }])) ∧
    (let s : State := { manned with fc := { manned.fc with condition := .settling } }
     s.tablesWf = true ∧ s.routesOf 0 = [] ∧
     ((completeReversal 0 s).train? 0).map (fun a => a.trailDue) = some true) ∧
    (let s := { under [] with fc := {} }.setTrain 0 fun t => { t with
       mark := .started, cfg := { t.cfg with runList := [0] } }
     s.tablesWf = true ∧ s.routesOf 0 = [0] ∧ ((completeReversal 0 s).train? 0).map (fun a => a.mark) = some .none ∧
     Notice.routeChange 0 .idle ∈ (completeReversal 0 s).agenda) := by decide +kernel

theorem test_hyps_aLossAndAConflictAreReported :
    (let s := manned.setTrain 0 fun t => { t with lostTimer := some 1 }
     s.AtRest ∧ after (exec (.lostTimerExpiry 0) s) (fun t => t.hl.tx == some (.report (.trainLost 0 0))) = true) ∧
    (let s : State := { facing 5 5 with
       sections := (facing 5 5).sections.map fun e => (e.1, { e.2 with cfg := { e.2.cfg with channel := some 3 } })
       dg := { (facing 5 5).dg with divider := 80000 } }
     s.AtRest ∧ s.tablesWf = true ∧ s.ss.stop = false ∧ s.mode = .run ∧
     (let t := runTick s
      t.hl.reports = [.trainConflict 0 3, .trainConflict 1 3] ∧ Notice.holdsChange 0 ∈ t.agenda ∧
      (t.train? 0).map (fun a => a.channelConflict) = some true)) ∧
    (let s := (facing 5 0).setTrain 0 fun t => { t with channelConflict := true }
     (judgeConflict 0 s).hl.reports = [.trainConflictClear 0] ∧ judgeConflict 9 s = s ∧ judgeConflict 1 s = s) := by
  refine ⟨⟨⟨rfl, rfl, rfl⟩, by decide +kernel⟩, ⟨⟨rfl, rfl, rfl⟩, by decide +kernel⟩, by decide +kernel⟩

theorem test_hyps_theChainIsFound :
    (let s : State := { yard with fc := { yard.fc with seq := .enumerate, condition := .down, lastFault := some .tail } }
     let cells := [true, true, true, true, false, false, false, false, true, false, true, false, false, true, true, false]
     s.AtRest ∧ readWord cells = .marker ∧ s.chainLength ≤ s.fc.enumCount ∧
     after (exec (.enumerationWord cells) s) (fun t => t.hl.tx == some (.report (.chainCondition .settling))
       && t.fc.seq == .idle && t.fc.lastFault == none) = true) ∧
    (let s : State := { yard with
       sections := Table.update yard.sections 1 fun r => { r with cfg := { r.cfg with detector := some ⟨0, 0⟩ } }
       fc := { yard.fc with modules := [(0, {})], terminals := [(0, { role := .detect 1 })]
                            live := [(0, { handed := some false })] } }
     (chainReset s).hl.reports = [.sec 1 true, .trainStray 1, .chainCondition .down]) := by
  refine ⟨⟨⟨rfl, rfl, rfl⟩, by decide +kernel⟩, by decide +kernel⟩

theorem test_hyps_linesJoinInOrder :
    (let s : State := { calm with vu := { calm.vu with
       boardQueue := [(2, 3)], boards := List.replicate 4 { lines := List.replicate 4 { acked := some (List.replicate 32 ' ') } } } }
     let t := (s.setLine 1 2 fun l => { l with source := .text "B".toList }).setLine 3 1 fun l => { l with acked := none }
     s.AtRest ∧ t.AtRest ∧ (judgeLines s).vu.boardQueue = [(2, 3)] ∧
     (judgeLines t).vu.boardQueue = [(2, 3), (1, 2), (3, 1)]) ∧
    calm.composeLine (.show 7) = List.replicate 32 ' ' := by
  refine ⟨⟨⟨rfl, rfl, rfl⟩, ⟨rfl, rfl, rfl⟩, by decide +kernel⟩, by decide +kernel⟩

theorem test_hyps_aDwellOfNothingIsOver :
    lent.show? 1 = none ∧ dwellOver 1 lent = lent ∧
    (let s := lent.setShow 0 fun w => { w with cfg := { w.cfg with legs := [{}, { target := some (1, .a) }] } }
     let at_ := fun (t : State) => (t.show? 0).map fun w => (w.state, w.leg, w.phase)
     at_ (dwellOver 0 s) = some (.running, 1, .dwell) ∧ at_ (dwellOver 0 lent) = some (.cooling, 0, .routeWait) ∧
     at_ (dwellOver 0 (s.setShow 0 fun w => { w with leg := 1 })) = some (.running, 1, .turn)) := by decide +kernel

theorem test_hyps_linesAsTheyAreSent :
    (TxLine.report (.routeQueued 7 (.train 3))).text = "! ROUTE 7 QUEUED TRAIN 3".toList ∧
    (TxLine.report (.sysInvalid (.point 9) .role)).text = "! SYS INVALID POINT 9 ROLE".toList ∧
    (TxLine.report (.turnDrift (-4))).text = "! TURN DRIFT -4".toList ∧
    (TxLine.report (.sysEstop (.button ⟨3, 12⟩))).text = "! SYS ESTOP BUTTON 3.12".toList ∧
    (TxLine.reply (.ok (.tell [.sec, .sys]))).text = "OK TELL SEC SYS".toList ∧
    (TxLine.reply (.no .state (some (.route 4)))).text = "NO STATE ROUTE 4".toList ∧
    (TxLine.reply (.notValid (.sec 11) .topology)).text = "NO INVALID SECTION 11 TOPOLOGY".toList := by decide +kernel

end Sys2Proof.Tests
end

section
/-! SUPPORT. ROUTE SET, ROUTE STORE and the visits of a re-examination (R59 to R62): what each answers, case by case. -/

namespace Sys2Proof.Table

/-- A record is ABSENT when its number is not listed. -/
theorem find_eq_none_iff {α : Type} (t : Table α) (k : Nat) : find t k = none ↔ k ∉ keys t := by
  induction t with
  | nil => exact ⟨fun _ => List.not_mem_nil, fun _ => rfl⟩
  | cons e rest ih =>
    simp only [keys, List.map_cons, List.mem_cons, not_or] at ih ⊢
    by_cases h : e.1 = k
    · simp only [find, h, if_true, not_true_eq_false, false_and, reduceCtorEq]
    · simp only [find, if_neg h, Ne.symm h, not_false_eq_true, true_and, ih]

end Sys2Proof.Table

namespace Sys2Proof.Machine

open Sys2Proof

/-! ## The route's own reply -/

/-- Whether a route is DEFINED is read from the numbers of the table alone. -/
theorem route?_eq_none_iff (s : State) (r : Nat) : s.route? r = none ↔ r ∉ s.tables.routes :=
  Table.find_eq_none_iff s.ix.routes r

theorem route?_ne_none_of_tables {s t : State} {r : Nat} (e : t.tables = s.tables) (h : s.route? r ≠ none) :
    t.route? r ≠ none := by
  rwa [Ne, route?_eq_none_iff, e, ← route?_eq_none_iff]

/-- The state a DEFINED route stands in; SETTING stands for a route that is ABSENT. -/
def State.routeStateOf (s : State) (r : Nat) : RouteState := ((s.route? r).map fun q => q.state).getD .setting

/-- The reply about a DEFINED route names its state. -/
theorem routeReply_of_defined {s : State} {r : Nat} (h : s.route? r ≠ none) :
    routeReply r s = .ok (.route r (s.routeStateOf r)) := by
  obtain ⟨q, hq⟩ := Option.ne_none_iff_exists'.1 h
  simp only [routeReply, State.routeStateOf, hq, Option.map_some, Option.getD_some]

/-! ## ROUTE SET (R59) -/

section RouteSet

variable {s : State} {r : Nat} {q : RouteRec}

theorem cmdRouteSet_out_of_range (hr : 256 ≤ r) : cmdRouteSet r s = (s, .no .range none) := if_pos hr

theorem cmdRouteSet_absent (hr : ¬ 256 ≤ r) (hq : s.route? r = none) : cmdRouteSet r s = (s, .no .unknown none) := by
  simp only [cmdRouteSet, Config.maxRoutes, if_neg hr, hq]

theorem cmdRouteSet_in_config (hr : ¬ 256 ≤ r) (hq : s.route? r = some q) (hm : s.mode = .config) :
    cmdRouteSet r s = (s, .no .mode none) := by
  simp only [cmdRouteSet, Config.maxRoutes, if_neg hr, hq, if_pos hm]

theorem cmdRouteSet_refused (hr : ¬ 256 ≤ r) (hq : s.route? r = some q) (hm : s.mode ≠ .config) {w : RefusalWords}
    (hw : s.settable r q = some w) : cmdRouteSet r s = (s, .no w.1 w.2) := by
  simp only [cmdRouteSet, Config.maxRoutes, if_neg hr, hq, if_neg hm, hw]

theorem cmdRouteSet_settable (hr : ¬ 256 ≤ r) (hq : s.route? r = some q) (hm : s.mode ≠ .config)
    (hw : s.settable r q = none) : cmdRouteSet r s = (enterSetting r q.cfg (startRequest r s),
      .ok (.route r ((enterSetting r q.cfg (startRequest r s)).routeStateOf r))) := by
  have hd : (enterSetting r q.cfg (startRequest r s)).route? r ≠ none :=
    route?_ne_none_of_tables ((tables_enterSetting _ _ _).trans (tables_startRequest r s)) (Option.ne_none_iff_exists'.2 ⟨q, hq⟩)
  simp only [cmdRouteSet, Config.maxRoutes, if_neg hr, hq, if_neg hm, hw, routeReply_of_defined hd]

end RouteSet

/-! ## ROUTE STORE (R60, R61) -/

/-- A route has an entry when some entry of the queue names it. -/
theorem request?_isSome_iff (s : State) (r : Nat) :
    (s.request? r).isSome = true ↔ ∃ e ∈ s.ix.requests, e.route = r := by
  simp only [State.request?, List.find?_isSome, beq_iff_eq]

section RouteStore

variable {s : State} {r : Nat} {q : RouteRec} {origin : Origin} {expiry : Option Nat}

theorem storeRequest_out_of_range (hr : 256 ≤ r) : storeRequest r origin expiry s = (s, .refused .range none) :=
  if_pos hr

theorem storeRequest_absent (hr : ¬ 256 ≤ r) (hq : s.route? r = none) :
    storeRequest r origin expiry s = (s, .refused .unknown none) := by
  simp only [storeRequest, Config.maxRoutes, if_neg hr, hq]

theorem storeRequest_in_config (hr : ¬ 256 ≤ r) (hq : s.route? r = some q) (hm : s.mode = .config) :
    storeRequest r origin expiry s = (s, .refused .mode none) := by
  simp only [storeRequest, Config.maxRoutes, if_neg hr, hq, if_pos hm]

/-- In RUN, a store of a DEFINED route is decided by its state, its entry, the settable test and the room left. -/
theorem storeRequest_in_run (hr : ¬ 256 ≤ r) (hq : s.route? r = some q) (hm : s.mode ≠ .config) :
    storeRequest r origin expiry s =
      if q.state ≠ .idle then (s, .refused .state (some (.route r)))
      else if ∃ e ∈ s.ix.requests, e.route = r then (s, .queued)
      else if s.settable r q = none then (enterSetting r q.cfg s, .started)
      else if 48 ≤ s.ix.requests.length then (s, .refused .full none)
      else ({ s with ix := { s.ix with requests := s.ix.requests ++ [Request.mk r origin expiry] } }.report
        (.routeQueued r origin), .queued) := by
  have hnone : (s.settable r q).isNone = true ↔ s.settable r q = none := Option.isNone_iff_eq_none
  simp only [storeRequest, Config.maxRoutes, if_neg hr, hq, if_neg hm]
  by_cases hi : q.state ≠ .idle
  · rw [if_pos hi, if_pos hi]
  by_cases he : ∃ e ∈ s.ix.requests, e.route = r
  · rw [if_neg hi, if_neg hi, if_pos he, if_pos ((request?_isSome_iff s r).2 he)]
  rw [if_neg hi, if_neg hi, if_neg he, if_neg (mt (request?_isSome_iff s r).1 he)]
  by_cases hw : s.settable r q = none
  · rw [if_pos hw, if_pos (hnone.2 hw)]
  · rw [if_neg hw, if_neg (mt hnone.1 hw)]
    rfl

/-- A store refused is answered by its own words. -/
theorem cmdRouteStore_of_refused {c : Code} {o : Option Obj} (h : storeRequest r .link none s = (s, .refused c o)) :
    cmdRouteStore r s = (s, .no c o) := by
  simp only [cmdRouteStore, h]

theorem cmdRouteStore_out_of_range (hr : 256 ≤ r) : cmdRouteStore r s = (s, .no .range none) :=
  cmdRouteStore_of_refused (storeRequest_out_of_range hr)

theorem cmdRouteStore_absent (hr : ¬ 256 ≤ r) (hq : s.route? r = none) :
    cmdRouteStore r s = (s, .no .unknown none) := cmdRouteStore_of_refused (storeRequest_absent hr hq)

theorem cmdRouteStore_in_config (hr : ¬ 256 ≤ r) (hq : s.route? r = some q) (hm : s.mode = .config) :
    cmdRouteStore r s = (s, .no .mode none) := cmdRouteStore_of_refused (storeRequest_in_config hr hq hm)

theorem cmdRouteStore_in_run (hr : ¬ 256 ≤ r) (hq : s.route? r = some q) (hm : s.mode ≠ .config) :
    cmdRouteStore r s =
      if q.state ≠ .idle then (s, .no .state (some (.route r)))
      else if ∃ e ∈ s.ix.requests, e.route = r then (s, .ok (.routeQueued r))
      else if s.settable r q = none then
        (enterSetting r q.cfg s, .ok (.route r ((enterSetting r q.cfg s).routeStateOf r)))
      else if 48 ≤ s.ix.requests.length then (s, .no .full none)
      else ({ s with ix := { s.ix with requests := s.ix.requests ++ [Request.mk r .link none] } }.report
        (.routeQueued r .link), .ok (.routeQueued r)) := by
  have hd : (enterSetting r q.cfg s).route? r ≠ none :=
    route?_ne_none_of_tables (tables_enterSetting r q.cfg s) (Option.ne_none_iff_exists'.2 ⟨q, hq⟩)
  simp only [cmdRouteStore, storeRequest_in_run hr hq hm]
  by_cases hi : q.state ≠ .idle
  · simp only [if_pos hi]
  by_cases he : ∃ e ∈ s.ix.requests, e.route = r
  · simp only [if_neg hi, if_pos he]
  by_cases hw : s.settable r q = none
  · simp only [if_neg hi, if_neg he, if_pos hw, routeReply_of_defined hd]
  by_cases hf : 48 ≤ s.ix.requests.length
  · simp only [if_neg hi, if_neg he, if_neg hw, if_pos hf]
  · simp only [if_neg hi, if_neg he, if_neg hw, if_neg hf]

end RouteStore

/-! ## The visits of a re-examination (R62) -/

theorem visitRequest_absent {s : State} {e : Request} (h : s.route? e.route = none) : visitRequest e s = s := by
  simp only [visitRequest, h]

theorem visitRequest_refused {s : State} {e : Request} {q : RouteRec} (hq : s.route? e.route = some q)
    (h : s.settable e.route q ≠ none) : visitRequest e s = s := by
  simp only [visitRequest, hq, Option.isNone_iff_eq_none, if_neg h]

theorem visitRequest_settable {s : State} {e : Request} {q : RouteRec} (hq : s.route? e.route = some q)
    (h : s.settable e.route q = none) :
    visitRequest e s = enterSetting e.route q.cfg (startRequest e.route s) := by
  simp only [visitRequest, hq, h, Option.isNone_none, if_true]

/-! ## The two commands on a ready part -/

theorem exec_routeSet_ready {s : State} (h : s.Ready) (r : Nat) : exec (.routeSet r) s =
    .next (deliver (workOut s (cmdRouteSet r s).1, (cmdRouteSet r s).2)) := exec_ready rfl h

theorem exec_routeStore_ready {s : State} (h : s.Ready) (r : Nat) : exec (.routeStore r) s =
    .next (deliver (workOut s (cmdRouteStore r s).1, (cmdRouteStore r s).2)) := exec_ready rfl h

/-- Settles O35: the rows of each command's table in turn, then the visits and the store by their own rows. -/
theorem routesAreSetAndStored : Obligations.RoutesAreSetAndStored := by
  unfold Obligations.RoutesAreSetAndStored
  refine ⟨fun s r ready => ⟨?set, ?store⟩, fun s => foldState_eq_foldl visitRequest s.ix.requests s,
    fun s e => ⟨visitRequest_absent, fun q hq => ⟨visitRequest_refused hq, visitRequest_settable hq⟩⟩,
    fun s r origin expiry => ?byOrigin⟩
  case set =>
    rw [exec_routeSet_ready ready]
    by_cases hr : 256 ≤ r
    · rw [if_pos hr, cmdRouteSet_out_of_range hr]
    rcases hq : s.route? r with _ | q
    · rw [if_neg hr, cmdRouteSet_absent hr hq]
    by_cases hm : s.mode = .config
    · simp only [if_neg hr, if_pos hm, cmdRouteSet_in_config hr hq hm]
    rcases hw : s.settable r q with _ | w
    · simp only [if_neg hr, if_neg hm, hw, cmdRouteSet_settable hr hq hm hw]
      rfl
    · simp only [if_neg hr, if_neg hm, hw, cmdRouteSet_refused hr hq hm hw]
  case store =>
    rw [exec_routeStore_ready ready]
    by_cases hr : 256 ≤ r
    · rw [if_pos hr, cmdRouteStore_out_of_range hr]
    rcases hq : s.route? r with _ | q
    · rw [if_neg hr, cmdRouteStore_absent hr hq]
    by_cases hm : s.mode = .config
    · simp only [if_neg hr, if_pos hm, cmdRouteStore_in_config hr hq hm]
    simp only [if_neg hr, if_neg hm, cmdRouteStore_in_run hr hq hm]
    by_cases hi : q.state ≠ .idle
    · simp only [if_pos hi]
    by_cases he : ∃ e ∈ s.ix.requests, e.route = r
    · simp only [if_neg hi, if_pos he]
    by_cases hw : s.settable r q = none
    · simp only [if_neg hi, if_neg he, if_pos hw, State.routeStateOf]
    by_cases hf : 48 ≤ s.ix.requests.length
    · simp only [if_neg hi, if_neg he, if_neg hw, if_pos hf]
    · simp only [if_neg hi, if_neg he, if_neg hw, if_neg hf]
  case byOrigin =>
    by_cases hr : 256 ≤ r
    · rw [if_pos hr, storeRequest_out_of_range hr]
    rcases hq : s.route? r with _ | q
    · rw [if_neg hr, storeRequest_absent hr hq]
    by_cases hm : s.mode = .config
    · simp only [if_neg hr, if_pos hm, storeRequest_in_config hr hq hm]
    · simp only [if_neg hr, if_neg hm, storeRequest_in_run hr hq hm]

end Sys2Proof.Machine
end

section
/-! SUPPORT. The aspects as the one assignment that R80 and R81 allow (section 5.3), and the route a signal leads (R79). -/

namespace Sys2Proof.Machine

open Sys2Proof

/-! ## The led route (R57, R79) -/

section LedRoute

variable {s : State} {g : Nat}

/-- The led route is the first of the table that is not IDLE and whose entry is the signal. -/
theorem ledRoute_eq_find? : s.ledRoute g =
    (s.ix.routes.find? fun e => !(decide (e.2.cfg.entry = some g → e.2.state = .idle))).map fun e => e.1 := by
  simp only [State.ledRoute, List.head?_map, List.head?_filter]
  congr 2
  funext e
  rw [Bool.eq_iff_iff]
  simp

theorem ledRoute_eq_none_iff (hwf : Table.wf s.ix.routes = true) :
    s.ledRoute g = none ↔ ∀ r q, s.route? r = some q → q.cfg.entry = some g → q.state = .idle := by
  simp only [ledRoute_eq_find?, Option.map_eq_none_iff, List.find?_eq_none, Bool.not_eq_true', Bool.not_eq_false,
    decide_eq_true_eq, Prod.forall, State.route?, Table.find_eq_some_iff s.ix.routes hwf]

/-- The led route is the lowest-numbered one that leaves the signal and is not IDLE. -/
theorem ledRoute_eq_some_iff (hwf : Table.wf s.ix.routes = true) (r : Nat) :
    s.ledRoute g = some r ↔ ∃ q, s.route? r = some q ∧ q.cfg.entry = some g ∧ q.state ≠ .idle ∧
      ∀ k a, s.route? k = some a → k < r → a.cfg.entry = some g → a.state = .idle := by
  have first := find?_failing_eq_some_iff
    (fun _ (q : RouteRec) => decide (q.cfg.entry = some g → q.state = .idle)) hwf
  simp only [ledRoute_eq_find?, Option.map_eq_some_iff, first]
  constructor
  · rintro ⟨⟨n, q⟩, ⟨hq, leads, lower⟩, rfl⟩
    obtain ⟨entry, busy⟩ := Classical.not_imp.1 (of_decide_eq_false leads)
    exact ⟨q, hq, entry, busy, fun k a ha hk => of_decide_eq_true (lower k a hk ha)⟩
  · rintro ⟨q, hq, entry, busy, lower⟩
    exact ⟨(r, q), ⟨hq, decide_eq_false fun idle => busy (idle entry), fun k a hk ha =>
      decide_eq_true (lower k a ha hk)⟩, rfl⟩

end LedRoute

/-! ## The conditions of R80 -/

theorem stands_iff (s : State) (p : Nat) (pos : PointPos) :
    s.stands p pos = true ↔ (s.point? p).map (fun t => t.position) = some pos.position := by
  unfold State.stands
  cases s.point? p <;> simp

/-- Condition 4. -/
theorem routeClear_iff (s : State) (c : RouteCfg) : s.routeClear c = true ↔
    ∀ x ∈ (if c.type = .shunt then c.path.dropLast else c.path) ++ c.overlap, s.occupied x = false := by
  simp only [State.routeClear, List.all_eq_true, Bool.not_eq_true']

/-- Condition 5. -/
theorem pointsProven_iff (s : State) (c : RouteCfg) : s.pointsProven c = true ↔
    ∀ q ∈ c.points ++ c.flanks, (s.point? q.1).map (fun t => t.position) = some q.2.position := by
  simp only [State.pointsProven, List.all_eq_true, stands_iff]

/-- Condition 6. -/
theorem bridgeProven_iff (s : State) (c : RouteCfg) : s.bridgeProven c = true ↔
    ∀ b ∈ c.bridge.toList, s.tu.state = .aligned ∧ (if b.2 = .a then s.tu.faceA else s.tu.faceB) = some b.1 := by
  unfold State.bridgeProven
  rcases c.bridge with _ | ⟨k, _ | _⟩ <;> simp

theorem proceeds_iff (s : State) (r : RouteRec) : s.proceeds r = true ↔ s.R80 r := by
  simp only [State.proceeds, State.R80, Bool.and_eq_true, beq_iff_eq, Bool.not_eq_true', State.stopped, State.healthy,
    decide_eq_true_eq, routeClear_iff, pointsProven_iff, bridgeProven_iff, and_assoc]

/-! ## One signal read ahead (R81) -/

/-- What R80 and R81 give signal `g` when the exit signals stand at the aspects `a`. -/
def State.aspectFrom (s : State) (a : Nat → Aspect) (g : Nat) : Aspect :=
  match (s.ledRoute g).bind s.route? with
  | none => .stop
  | some r =>
    if s.proceeds r then
      match r.cfg.type, r.cfg.exit with
      | .shunt, _ => .shunt
      | .main, .buffer | .main, .road _ => .caution
      | .main, .signal h =>
        match s.signal? h with
        | none => .caution
        | some _ => (a h).inRear
    else .stop

/-- A look of one signal more is one reading of the rule. -/
theorem aspectAt_succ (s : State) (k g : Nat) : s.aspectAt (k + 1) g = s.aspectFrom (s.aspectAt k) g := rfl

/-- An assignment meets the rules at a signal when it gives it what the rule reads from the assignment itself. -/
theorem meetsRules_iff (s : State) (a : Nat → Aspect) (g : Nat) : s.MeetsRules a g ↔ a g = s.aspectFrom a g := by
  unfold State.MeetsRules State.aspectFrom
  rcases (s.ledRoute g).bind s.route? with _ | r
  · exact Iff.rfl
  by_cases hp : s.R80 r
  case neg => simp only [hp, proceeds_iff, not_false_eq_true, forall_const, false_implies, and_true, if_false]
  simp only [hp, proceeds_iff, not_true_eq_false, false_implies, forall_const, true_and, if_true]
  rcases r.cfg.type with _ | _
  · rcases r.cfg.exit with h | _ | _
    · dsimp only
      rcases s.signal? h with _ | _
      · exact Iff.rfl
      · cases a h <;> exact Iff.rfl
    · exact Iff.rfl
    · exact Iff.rfl
  · exact Iff.rfl

/-- A signal depends on the aspect of at most one other signal, the exit signal of the route it leads. -/
theorem aspectFrom_fixed_or_inRear (s : State) (g : Nat) :
    (∀ a b, s.aspectFrom a g = s.aspectFrom b g) ∨ ∃ h, ∀ a, s.aspectFrom a g = (a h).inRear := by
  unfold State.aspectFrom
  rcases (s.ledRoute g).bind s.route? with _ | r
  · exact .inl fun _ _ => rfl
  by_cases hp : s.proceeds r = true
  case neg => exact .inl fun _ _ => by simp only [if_neg hp]
  simp only [if_pos hp]
  rcases r.cfg.type with _ | _
  · rcases r.cfg.exit with h | _ | _
    · dsimp only
      rcases s.signal? h with _ | _
      · exact .inl fun _ _ => rfl
      · exact .inr ⟨h, fun _ => rfl⟩
    · exact .inl fun _ _ => rfl
    · exact .inl fun _ _ => rfl
  · exact .inl fun _ _ => rfl

/-! ## The assignment (section 5.3) -/

/-- Three signals in rear of any signal the aspect is CLEAR, whatever that signal shows. -/
theorem inRear_thrice (a : Aspect) : Nat.repeat Aspect.inRear 3 a = .clear := by
  cases a <;> rfl

/-- Where looking `k + 1` signals ahead differs from looking `k`, both aspects come from a signal `k` signals ahead, one
inRear for each signal between. -/
theorem aspectAt_succ_eq_or_inRear (s : State) : ∀ k g, s.aspectAt (k + 1) g = s.aspectAt k g ∨
    ∃ a b, s.aspectAt (k + 1) g = Nat.repeat Aspect.inRear k a ∧ s.aspectAt k g = Nat.repeat Aspect.inRear k b
  | 0, _ => .inr ⟨_, _, rfl, rfl⟩
  | k + 1, g => by
    rw [aspectAt_succ s (k + 1), aspectAt_succ s k]
    rcases aspectFrom_fixed_or_inRear s g with fixed | ⟨h, reads⟩
    · exact .inl (fixed _ _)
    rw [reads, reads]
    rcases aspectAt_succ_eq_or_inRear s k h with same | ⟨a, b, more, less⟩
    · exact .inl (congrArg _ same)
    · exact .inr ⟨a, b, congrArg _ more, congrArg _ less⟩

/-- Three signals looked ahead are enough. -/
theorem aspectNow_eq_aspectAt_three (s : State) (g : Nat) : s.aspectNow g = s.aspectAt 3 g := by
  rcases aspectAt_succ_eq_or_inRear s 3 g with same | ⟨a, b, more, less⟩
  · exact same
  · exact more.trans ((inRear_thrice a).trans (less.trans (inRear_thrice b)).symm)

/-- The aspects as they stand are what the rule reads from them. -/
theorem aspectNow_eq_aspectFrom (s : State) (g : Nat) : s.aspectNow g = s.aspectFrom s.aspectNow g :=
  calc s.aspectNow g = s.aspectFrom (s.aspectAt 3) g := aspectAt_succ s 3 g
    _ = s.aspectFrom s.aspectNow g := by rw [funext (aspectNow_eq_aspectAt_three s)]

/-- Settles O39: the aspects are a fixed point of the rule, as three signals looked ahead are enough; the led route is
the lowest-numbered failure of a visit of the canonical route table. -/
theorem aspectsMeetR80AndR81 : Obligations.AspectsMeetR80AndR81 := by
  refine ⟨fun s g => (meetsRules_iff s s.aspectNow g).2 (aspectNow_eq_aspectFrom s g), fun s g canonical => ?_⟩
  have routes : Table.wf s.ix.routes = true := by
    simp only [State.tablesWf, Bool.and_eq_true, and_assoc] at canonical
    obtain ⟨-, -, -, -, -, routes, -⟩ := canonical
    exact routes
  exact ⟨ledRoute_eq_none_iff routes, ledRoute_eq_some_iff routes⟩

end Sys2Proof.Machine
end

section
/-! SUPPORT. The drive channels one by one: what a change of force does to a channel (R109, R111), what a train asks of
its channels (R118, R119) and what a channel settles to (R120, R122). -/

namespace Sys2Proof.Machine

open Sys2Proof

/-! ## The channels of a part, and one channel's output state (R108, R109) -/

/-- A change of every channel writes the list of channels alone, each under its own number. -/
theorem mapChannels_eq (f : Nat → Channel → Channel) (s : State) :
    mapChannels f s = { s with dg := { s.dg with channels := s.dg.channels.mapIdx f } } := by
  simp only [mapChannels, List.mapIdx_eq_zipIdx_map]

theorem channel_of_getElem? {s : State} {i : Nat} {ch : Channel} (h : s.dg.channels[i]? = some ch) :
    s.channel i = ch := by
  simp only [State.channel, h, Option.getD_some]

/-- A channel has sections when some section names it as its drive channel. -/
theorem sectionsOn_ne_nil_iff (s : State) (c : Nat) :
    s.sectionsOn c ≠ [] ↔ ∃ x ∈ s.sections, x.2.cfg.channel = some c := by
  simp only [State.sectionsOn, Ne, List.map_eq_nil_iff, List.filter_eq_nil_iff, beq_iff_eq,
    Classical.not_forall, Classical.not_not, exists_prop]

/-- R109's three reasons for FLOAT. -/
theorem outputFor_eq_float_iff (s : State) (f : Force) :
    s.outputFor f = .float ↔ s.ss.stop = true ∨ f = .float ∨ (s.mode = .config ∧ f = .none) := by
  unfold State.outputFor State.stopped
  by_cases hs : s.ss.stop = true
  · simp [hs]
  by_cases hf : f = .float
  · simp [hs, hf]
  by_cases hm : s.mode = .config ∧ f = .none
  · simp [hs, hm]
  · simp [hs, hf, hm]

/-- A change makes a channel FLOAT at once, and puts the shadow of one that returns to drive to 0; it touches no other
field. -/
theorem reviseOutput_eq (before s : State) (old ch : Channel) : reviseOutput before s old ch = { ch with
    output := if s.outputFor ch.force = .float then .float else ch.output
    shadow := if before.outputFor old.force = .float ∧ ¬ s.outputFor ch.force = .float then 0 else ch.shadow } := by
  unfold reviseOutput
  rcases before.outputFor old.force <;> rcases s.outputFor ch.force <;> simp

/-- A channel whose force stays and that is FLOAT where R109 has it so is left as it is. -/
theorem reviseOutput_self {s : State} {ch : Channel} (h : s.outputFor ch.force = .float → ch.output = .float) :
    reviseOutput s s ch ch = ch := by
  by_cases hf : s.outputFor ch.force = .float
  · simp only [reviseOutput_eq, hf, if_true, not_true_eq_false, and_false, if_false, ← h hf]
  · simp only [reviseOutput_eq, hf, if_false, false_and]

/-! ## CHAN FORCE (R111) -/

/-- A new force acts on its own channel alone. -/
theorem reviseOutputs_setForce {s : State} (floats : s.FloatsByR109) (c : Nat) (f : Force) :
    reviseOutputs s (setForce c f s) = { s with dg := { s.dg with
      channels := s.dg.channels.modify c fun ch => reviseOutput s s ch { ch with force := f } } } := by
  have same : reviseOutput s (setForce c f s) = reviseOutput s s := rfl
  simp only [reviseOutputs, same]
  simp only [setForce, mapChannels_eq, List.mapIdx_mapIdx]
  congr 2
  refine List.ext_getElem? fun i => ?_
  rw [List.getElem?_mapIdx, List.getElem?_modify]
  rcases hch : s.dg.channels[i]? with _ | ch
  · rfl
  simp only [Option.map_some, Option.map_eq_map, Function.comp_apply, channel_of_getElem? hch]
  by_cases hi : i = c
  · simp only [hi, if_true]
  · have stays : reviseOutput s s ch ch = ch := reviseOutput_self fun float =>
      floats ch (List.mem_of_getElem? hch) ((outputFor_eq_float_iff s ch.force).1 float)
    simp only [if_neg hi, if_neg (Ne.symm hi), stays]

/-- Settles O20: R111's table row by row; the force that passes it is written and acted on as `reviseOutputs_setForce`
has it. -/
theorem chanForceKeepsR111 : Obligations.ChanForceKeepsR111 := by
  unfold Obligations.ChanForceKeepsR111
  intro s c f ready floats
  rw [exec_ready rfl ready]
  congr 2
  change cmdChanForce c f s = _
  unfold cmdChanForce Config.maxChannels State.stopped
  by_cases hc : 24 ≤ c
  · rw [if_pos hc, if_pos hc]
  rw [if_neg hc, if_neg hc]
  rcases f with _ | f
  · rfl
  simp only [sectionsOn_ne_nil_iff]
  by_cases hm : s.mode = .run ∧ ∃ x ∈ s.sections, x.2.cfg.channel = some c
  · rw [if_pos hm, if_pos hm]
  by_cases hs : s.ss.stop = true ∧ (f = .fullPos ∨ f = .fullNeg)
  · rw [if_neg hm, if_neg hm, if_pos hs, if_pos hs]
  · simp only [if_neg hm, if_neg hs, reviseOutputs_setForce floats, reviseOutput_eq, outputFor_eq_float_iff]

/-! ## Duty and compare (R118) -/

theorem duty_one {t : TrainCfg} (h : t.vmax ≤ 1000) : t.duty 1 = t.v0 := by
  have below : (t.vmax - t.v0) * 1 / 2032 = 0 := Nat.div_eq_of_lt (by omega)
  rw [TrainCfg.duty, if_neg Nat.one_ne_zero, below, Nat.add_zero]

theorem duty_full {t : TrainCfg} (h : t.v0 ≤ t.vmax) : t.duty 2032 = t.vmax := by
  have whole : (t.vmax - t.v0) * 2032 / 2032 = t.vmax - t.v0 := Nat.mul_div_cancel _ (by decide)
  rw [TrainCfg.duty, if_neg (by decide), whole, Nat.add_sub_cancel' h]

/-- A higher step gives no lower duty. -/
theorem duty_le_duty (t : TrainCfg) {c d : Nat} (h : c ≤ d) : t.duty c ≤ t.duty d := by
  unfold TrainCfg.duty
  by_cases hc : c = 0
  · simp only [if_pos hc, Nat.zero_le]
  have hd : d ≠ 0 := by omega
  rw [if_neg hc, if_neg hd]
  exact Nat.add_le_add_left (Nat.div_le_div_right (Nat.mul_le_mul_left _ h)) _

theorem compareOf_le_compareOf {a b : Nat} (p : Nat) (h : a ≤ b) : compareOf a p ≤ compareOf b p :=
  Nat.div_le_div_right (Nat.add_le_add_right (Nat.mul_le_mul_right p h) 500)

/-- The full duty compares with the whole period. -/
theorem compareOf_thousand (p : Nat) : compareOf 1000 p = p := by
  unfold compareOf
  omega

/-- No step of a train compares beyond the period. -/
theorem compareOf_duty_le {t : TrainCfg} (hv : t.v0 ≤ t.vmax) (hm : t.vmax ≤ 1000) {c : Nat} (hc : c ≤ 2032) (p : Nat) :
    compareOf (t.duty c) p ≤ p :=
  calc compareOf (t.duty c) p ≤ compareOf 1000 p :=
        compareOf_le_compareOf p (Nat.le_trans (duty_le_duty t hc) (Nat.le_trans (Nat.le_of_eq (duty_full hv)) hm))
    _ = p := compareOf_thousand p

/-! ## What a train requires of a channel (R119) -/

/-- A train requires the polarity of each of its exits on a section of the channel. -/
theorem mem_polaritiesOn_iff (s : State) (t : TrainRec) (c : Nat) (p : Polarity) : p ∈ s.polaritiesOn t c ↔
    ∃ e ∈ t.list, ∃ r, s.section? e.sec = some r ∧ r.cfg.channel = some c ∧ p = polarityFor e.exit r.cfg.sense := by
  simp only [State.polaritiesOn, List.mem_eraseDups, List.mem_filterMap]
  refine exists_congr fun e => and_congr_right fun _ => ?_
  rcases s.section? e.sec with _ | r
  · simp only [reduceCtorEq, false_and, exists_false]
  by_cases hc : r.cfg.channel = some c
  · simp only [hc, if_true, Option.some.injEq, exists_eq_left', true_and, eq_comm]
  · simp only [hc, if_false, Option.some.injEq, exists_eq_left', false_and, reduceCtorEq]

/-- The trains on a channel are the ACTIVE ones that require a polarity of it. -/
theorem trainsOn_eq (s : State) (c : Nat) : s.trainsOn c = s.tt.trains.filterMap fun e =>
    if e.2.state = .active ∧ s.polaritiesOn e.2 c ≠ [] then
      some { train := e.1, compare := compareOf (e.2.cfg.duty e.2.current) s.dg.period
             polarities := s.polaritiesOn e.2 c }
    else none := by
  refine congrArg (List.filterMap · s.tt.trains) (funext fun e => ?_)
  by_cases active : e.2.state = .active
  · rcases s.polaritiesOn e.2 c with _ | ⟨p, ps⟩ <;> simp [active]
  · simp only [active, if_false, false_and]

theorem polarities_ne_nil_of_mem_trainsOn {s : State} {c : Nat} {t : TickTrain} (h : t ∈ s.trainsOn c) :
    t.polarities ≠ [] := by
  rw [trainsOn_eq, List.mem_filterMap] at h
  obtain ⟨e, -, he⟩ := h
  split at he
  case isTrue on =>
    cases he
    exact on.2
  case isFalse => cases he

/-! ## The trains of a channel between them (R120) -/

theorem lowestCompare_le : ∀ {ts : List TickTrain} {t : TickTrain}, t ∈ ts → lowestCompare ts ≤ t.compare
  | [a], t, h => by rw [List.mem_singleton.1 h]; exact Nat.le_refl _
  | a :: b :: rest, t, h => by
    rcases List.mem_cons.1 h with rfl | later
    · exact Nat.min_le_left _ _
    · exact Nat.le_trans (Nat.min_le_right _ _) (lowestCompare_le later)

/-- The lowest compare is that of one of the trains. -/
theorem exists_lowestCompare : ∀ {ts : List TickTrain}, ts ≠ [] → ∃ t ∈ ts, lowestCompare ts = t.compare
  | [a], _ => ⟨a, List.mem_singleton_self a, rfl⟩
  | a :: b :: rest, _ => by
    obtain ⟨t, ht, lowest⟩ := exists_lowestCompare (List.cons_ne_nil b rest)
    rcases Nat.le_total a.compare (lowestCompare (b :: rest)) with lower | later
    · exact ⟨a, List.mem_cons_self, Nat.min_eq_left lower⟩
    · exact ⟨t, List.mem_cons_of_mem a ht, (Nat.min_eq_right later).trans lowest⟩

theorem mem_polaritiesOf_iff (ts : List TickTrain) (p : Polarity) :
    p ∈ polaritiesOf ts ↔ ∃ t ∈ ts, p ∈ t.polarities := by
  simp only [polaritiesOf, List.mem_eraseDups, List.mem_flatMap]

/-- Without repeats, the entries of a list that holds `a` alone are `a` once. -/
theorem eraseDups_eq_singleton {α : Type} [BEq α] [LawfulBEq α] {l : List α} {a : α} (nonempty : l ≠ [])
    (all : ∀ b ∈ l, b = a) : l.eraseDups = [a] := by
  obtain ⟨b, rest, rfl⟩ := List.exists_cons_of_ne_nil nonempty
  obtain rfl := all b List.mem_cons_self
  have no_other : rest.filter (fun d => !d == b) = [] := List.filter_eq_nil_iff.2 fun d hd => by
    simp only [all d (List.mem_cons_of_mem b hd), beq_self_eq_true, Bool.not_true, Bool.false_eq_true, not_false_eq_true]
  rw [List.eraseDups_cons, no_other, List.eraseDups_nil]

/-- Trains that all require one polarity resolve to it, at the lowest of their compares. -/
theorem resolveChannel_agreed {ts : List TickTrain} {p : Polarity} (old : Polarity)
    (required : ∃ t ∈ ts, t.polarities ≠ []) (agreed : ∀ t ∈ ts, ∀ q ∈ t.polarities, q = p) :
    resolveChannel ts old = (lowestCompare ts, p, false) := by
  obtain ⟨t, ht, hne⟩ := required
  have one : polaritiesOf ts = [p] := eraseDups_eq_singleton
    (fun nil => hne (List.flatMap_eq_nil_iff.1 nil t ht))
    fun q hq => by
      obtain ⟨u, hu, hmem⟩ := List.mem_flatMap.1 hq
      exact agreed u hu q hmem
  simp only [resolveChannel, one]

/-- Trains that require both polarities between them are in conflict, and the polarity stays. -/
theorem resolveChannel_conflict {ts : List TickTrain} (old : Polarity) (pos : ∃ t ∈ ts, .pos ∈ t.polarities)
    (neg : ∃ t ∈ ts, .neg ∈ t.polarities) : resolveChannel ts old = (0, old, true) := by
  rw [← mem_polaritiesOf_iff] at pos neg
  unfold resolveChannel
  split
  case h_1 nil => rw [nil] at pos; cases pos
  case h_2 p one =>
    rw [one, List.mem_singleton] at pos neg
    exact absurd (pos.trans neg.symm) (by decide)
  case h_3 => rfl

/-! ## The cuts and the settling (R120, R122) -/

/-- A stop cut holds the drive channel of the signal's stop section. -/
theorem stopCutOn_iff (s : State) (c : Nat) : s.stopCutOn c = true ↔
    ∃ g ∈ s.ix.signals, g.2.stopCut = true ∧ ∃ x r, g.2.cfg.stopSection = some x ∧ s.section? x = some r ∧
      r.cfg.channel = some c := by
  simp only [State.stopCutOn, List.any_eq_true, Bool.and_eq_true]
  refine exists_congr fun g => and_congr_right fun _ => and_congr_right fun _ => ?_
  rcases g.2.cfg.stopSection with _ | x
  · simp
  rcases hx : s.section? x with _ | r <;> simp [hx]

/-- The bridge cut holds the drive channel of the BRIDGE section while the bridge steps. -/
theorem bridgeCutOn_iff (s : State) (c : Nat) : s.bridgeCutOn c = true ↔
    (s.tu.state = .homing ∨ s.tu.state = .moving ∨ s.tu.state = .stopping) ∧
      ∃ x ∈ s.sections, x.2.cfg.kind = .bridge ∧ x.2.cfg.channel = some c := by
  have stepping : s.tu.ten = true ↔ s.tu.state = .homing ∨ s.tu.state = .moving ∨ s.tu.state = .stopping := by
    unfold Turntable.ten
    cases s.tu.state <;> decide
  simp only [State.bridgeCutOn, Bool.and_eq_true, stepping, List.any_eq_true, beq_iff_eq]

/-- A cut takes the drive from a channel, whatever its trains ask; polarity and conflict are what they resolve to. -/
theorem settleChannel_of_resolved {s : State} {c : Nat} {ch : Channel} {k : Nat} {p : Polarity} {conflict : Bool}
    (h : resolveChannel (s.trainsOn c) ch.shadowPolarity = (k, p, conflict)) :
    (s.settleChannel c ch).shadow = (if s.stopCutOn c = true ∨ s.bridgeCutOn c = true then 0 else k) ∧
      (s.settleChannel c ch).shadowPolarity = p ∧ (s.settleChannel c ch).conflict = conflict := by
  simp only [State.settleChannel, h, Bool.or_eq_true, and_self]

/-- A channel that resolves to compare 0 has shadow 0, cut or not. -/
theorem settleChannel_of_resolved_zero {s : State} {c : Nat} {ch : Channel} {p : Polarity} {conflict : Bool}
    (h : resolveChannel (s.trainsOn c) ch.shadowPolarity = (0, p, conflict)) :
    (s.settleChannel c ch).shadow = 0 ∧ (s.settleChannel c ch).shadowPolarity = p ∧
      (s.settleChannel c ch).conflict = conflict := by
  simpa only [ite_self] using settleChannel_of_resolved h

/-- Trains in agreement are driven at the lowest of their compares, unless the channel is cut. -/
theorem settleChannel_agreed {s : State} {c : Nat} {p : Polarity} (ch : Channel) (on : s.trainsOn c ≠ [])
    (agreed : ∀ t ∈ s.trainsOn c, ∀ q ∈ t.polarities, q = p) :
    (s.settleChannel c ch).shadow =
        (if s.stopCutOn c = true ∨ s.bridgeCutOn c = true then 0 else lowestCompare (s.trainsOn c)) ∧
      (s.settleChannel c ch).shadowPolarity = p ∧ (s.settleChannel c ch).conflict = false := by
  obtain ⟨t, ht⟩ := List.exists_mem_of_ne_nil _ on
  exact settleChannel_of_resolved
    (resolveChannel_agreed ch.shadowPolarity ⟨t, ht, polarities_ne_nil_of_mem_trainsOn ht⟩ agreed)

/-- Settles O48: duty and compare by arithmetic; the required polarity by the table of R119; the settling of a channel
by whether its trains are none, agree or conflict, under the cuts of R122. -/
theorem channelsSettleByR118ToR122 : Obligations.ChannelsSettleByR118ToR122 := by
  unfold Obligations.ChannelsSettleByR118ToR122
  refine ⟨?duty, ?polarity, trainsOn_eq, ?settling⟩
  case duty =>
    exact fun t c p => ⟨rfl, rfl, compareOf_thousand p, fun hv hm =>
      ⟨duty_one hm, duty_full (Nat.le_of_lt hv), fun _ => duty_le_duty t, fun hc => compareOf_duty_le (Nat.le_of_lt hv) hm hc p⟩⟩
  case polarity =>
    intro s t c p
    rw [mem_polaritiesOn_iff]
    refine exists_congr fun e => and_congr_right fun _ => exists_congr fun r => and_congr_right fun _ =>
      and_congr_right fun _ => ?_
    cases e.exit <;> cases r.cfg.sense <;> exact Iff.rfl
  case settling =>
    intro s c ch ts new cut
    have cut_iff : s.stopCutOn c = true ∨ s.bridgeCutOn c = true ↔ cut :=
      or_congr (stopCutOn_iff s c) (bridgeCutOn_iff s c)
    refine ⟨fun h => (settleChannel_of_resolved rfl).1.trans (if_pos (cut_iff.2 h)), fun empty => ?idle,
      fun p on agreed => ?agreed, fun pos neg => settleChannel_of_resolved_zero (resolveChannel_conflict _ pos neg),
      rfl, rfl, rfl, rfl⟩
    case idle => exact settleChannel_of_resolved_zero (congrArg (fun l => resolveChannel l ch.shadowPolarity) empty)
    case agreed =>
      obtain ⟨shadow, polarity, conflict⟩ := settleChannel_agreed ch on agreed
      refine ⟨polarity, conflict, fun t ht => ?_, fun uncut => ?_⟩
      · rw [shadow]
        split
        · exact Nat.zero_le _
        · exact lowestCompare_le ht
      · rw [shadow, if_neg (mt cut_iff.1 uncut)]
        exact exists_lowestCompare on

end Sys2Proof.Machine
end

section
/-! SUPPORT. The line buffer by R152: what joining comes to and leaves alone, the entry an ended line makes, a part
whose reply slot is full waits, and the link a start-up begins with. -/

namespace Sys2Proof.Machine

open Sys2Proof

/-! ## Joining (R152) -/

theorem join_of_room {h : HostLink} (room : h.buffer.length < 4) (e : BufferEntry) :
    h.join e = { h with buffer := h.buffer ++ [e] } := if_pos room

theorem join_of_full {h : HostLink} (full : 4 ≤ h.buffer.length) (below : h.owed < 255) (e : BufferEntry) :
    h.join e = { h with owed := h.owed + 1 } :=
  (if_neg (Nat.not_lt.2 full)).trans (if_pos below)

theorem join_of_owedFull {h : HostLink} (full : 4 ≤ h.buffer.length) (most : 255 ≤ h.owed) (e : BufferEntry) :
    h.join e = { h with lost := min (h.lost + 1) 65535 } :=
  (if_neg (Nat.not_lt.2 full)).trans (if_neg (Nat.not_lt.2 most))

/-- A line that ends changes the buffer and the two counts alone. -/
theorem join_frame (h : HostLink) (e : BufferEntry) :
    ∃ buffer owed lost, h.join e = { h with buffer := buffer, owed := owed, lost := lost } := by
  rcases Nat.lt_or_ge h.buffer.length 4 with room | full
  · exact ⟨_, _, _, join_of_room room e⟩
  rcases Nat.lt_or_ge h.owed 255 with below | most
  · exact ⟨_, _, _, join_of_full full below e⟩
  · exact ⟨_, _, _, join_of_owedFull full most e⟩

@[simp] theorem join_line (h : HostLink) (e : BufferEntry) : (h.join e).line = h.line := by
  obtain ⟨_, _, _, eq⟩ := join_frame h e
  rw [eq]

@[simp] theorem join_gapTimer (h : HostLink) (e : BufferEntry) : (h.join e).gapTimer = h.gapTimer := by
  obtain ⟨_, _, _, eq⟩ := join_frame h e
  rw [eq]

@[simp] theorem join_slot (h : HostLink) (e : BufferEntry) : (h.join e).slot = h.slot := by
  obtain ⟨_, _, _, eq⟩ := join_frame h e
  rw [eq]

@[simp] theorem join_tx (h : HostLink) (e : BufferEntry) : (h.join e).tx = h.tx := by
  obtain ⟨_, _, _, eq⟩ := join_frame h e
  rw [eq]

/-! ## The end of a line by CR (R150, R152) -/

/-- The entry a line in assembly makes when it ends: itself, or the mark of its fault. -/
def Assembly.entry (a : Assembly) : BufferEntry :=
  match a.fault with
  | none => .line a.chars
  | some f => .mark (markOf f)

/-- A line with a fault, or with characters, joins as its entry; only the empty good line is ignored. -/
theorem endLine_eq_join {h : HostLink} {a : Assembly} (line : h.line = some a)
    (joins : a.fault ≠ none ∨ a.chars ≠ []) : h.endLine = h.clearLine.join a.entry := by
  rcases fault : a.fault with _ | f
  · have chars : a.chars ≠ [] := joins.resolve_left (not_not_intro fault)
    simp only [HostLink.endLine, Assembly.entry, line, fault, if_neg chars]
  · simp only [HostLink.endLine, Assembly.entry, line, fault]

/-- With no line in assembly there is no gap timer to start again. -/
theorem restartGap_of_no_line {s : State} (line : s.hl.line = none) (timer : s.hl.gapTimer = none) :
    restartGap s = s := by
  have link : ({ s.hl with gapTimer := s.hl.line.map fun _ => s.now + ms 2000 } : HostLink) = s.hl := by
    rw [line, Option.map_none, ← timer]
  rw [restartGap, State.setLink, link]

theorem receive_cr {s : State} (high : s.hl.rxBreak = false) :
    receive 13 false s = restartGap (s.setLink HostLink.endLine) := by
  rw [receive, high]
  rfl

/-- The CR of a line that is not ignored makes its entry join, with the line and its timer gone. -/
theorem receive_cr_joins {s : State} {a : Assembly} (high : s.hl.rxBreak = false) (line : s.hl.line = some a)
    (joins : a.fault ≠ none ∨ a.chars ≠ []) :
    receive 13 false s = s.setLink fun h => h.clearLine.join a.entry := by
  have ended : s.setLink HostLink.endLine = s.setLink fun h => h.clearLine.join a.entry := by
    rw [State.setLink, endLine_eq_join line joins, State.setLink]
  rw [receive_cr high, ended]
  exact restartGap_of_no_line (join_line ..) (join_gapTimer ..)

/-! ## A part whose reply slot is full waits -/

@[simp] theorem lineText_setLink (s : State) (f : HostLink → HostLink) (b l : Nat) :
    (s.setLink f).lineText b l = s.lineText b l := rfl

theorem sendOldest_setLink (f : HostLink → HostLink) (q : List (Nat × Nat)) (s : State) :
    sendOldest q (s.setLink f) = (sendOldest q s).setLink f := by
  induction q generalizing s with
  | nil => rfl
  | cons e rest ih =>
    obtain ⟨b, l⟩ := e
    have board : (s.setLink f).board b = s.board b := rfl
    simp only [sendOldest, board, lineText_setLink]
    split
    · split
      · exact ih (s.unqueueLine b l)
      · rfl
    · exact ih s

/-- The board link's arbiter neither reads nor changes the host link. -/
theorem chooseTransfer_setLink (f : HostLink → HostLink) (s : State) :
    chooseTransfer (s.setLink f) = (chooseTransfer s).setLink f := by
  have probe : (s.setLink f).dueProbe = s.dueProbe := rfl
  simp only [chooseTransfer, setLink_vu, probe]
  split
  · split
    · rfl
    · exact sendOldest_setLink f s.vu.boardQueue s
  · rfl

/-- At rest with a reply waiting in the slot, a change of the link that keeps the slot and the transmitter gives the
arbiters nothing to do: the transmitter is busy, as a waiting reply would else be sent. -/
theorem arbitrate_setLink_of_slot {s : State} (rest : s.AtRest) (waits : s.hl.slot ≠ none) {f : HostLink → HostLink}
    (slot : (f s.hl).slot = s.hl.slot) (tx : (f s.hl).tx = s.hl.tx) : arbitrate (s.setLink f) = s.setLink f := by
  have busy : s.hl.tx ≠ none := fun free => waits (AtRest.free rest free).2.1
  have pumped : pumpStep (s.setLink f) = s.setLink f :=
    pumpStep_rest (fun take => waits (slot.symm.trans take.1)) (fun free => busy (tx.symm.trans free))
  obtain ⟨-, -, chosen⟩ := rest
  simp only [arbitrate, pump, pumped, chooseTransfer_setLink, chosen]

/-- The CR of a line that is not ignored, while a reply waits in the slot, makes its entry join and changes nothing
else. -/
theorem exec_cr_joins {s : State} {a : Assembly} (rest : s.AtRest) (waits : s.hl.slot ≠ none)
    (high : s.hl.rxBreak = false) (line : s.hl.line = some a) (joins : a.fault ≠ none ∨ a.chars ≠ []) :
    exec (.characterReceived 13 false) s = .next (s.setLink fun h => h.clearLine.join a.entry) := by
  have run : exec (.characterReceived 13 false) s = event (receive 13 false) s := rfl
  rw [run, event_at_rest _ rest, receive_cr_joins high line joins]
  exact congrArg _ (arbitrate_setLink_of_slot rest waits (join_slot ..) (join_tx ..))

/-! ## The link after a start-up (R152, R162) -/

/-- A start-up leaves the link at its first values, at some speed: all it does after is queue reports. -/
theorem link_startUp (cause : StartCause) (loop : LoopValue) (speed : Nat) (s : State) :
    ∃ v, (startUp cause loop speed s).link = HostLink.view { speed := v } true s.pending := by
  have stopped : ∀ u : State, (match u.startStop with
      | some c => arrival (activateStop c) u
      | none => u).link = u.link := by
    intro u
    split
    · exact link_arrival _ (link_activateStop _) u
    · rfl
  simp only [startUp, link_report, apply_ite State.link, link_autorun, ite_self]
  refine Exists.imp (fun v loaded => (stopped _).trans loaded) ?_
  split
  · rw [apply_ite State.link]
    split <;> exact ⟨_, rfl⟩
  · exact ⟨_, link_report ..⟩

/-- After power-on and after RESET the buffer is empty, no line is in assembly and both counts are 0 (R152). -/
theorem startUp_link_empty (cause : StartCause) (loop : LoopValue) (speed : Nat) (s : State) :
    (startUp cause loop speed s).hl.buffer = [] ∧ (startUp cause loop speed s).hl.line = none ∧
      (startUp cause loop speed s).hl.owed = 0 ∧ (startUp cause loop speed s).hl.lost = 0 := by
  obtain ⟨v, link⟩ := link_startUp cause loop speed s
  exact ⟨congrArg LinkView.buffer link, congrArg LinkView.line link, congrArg LinkView.owed link,
    congrArg LinkView.lost link⟩

/-- Settles O10: joining by the room left in the buffer and the owed count, the end of a line by its fault, the choice,
GET LINK and the two starts each by its own rule. -/
theorem theLineBufferKeepsR152 : Obligations.TheLineBufferKeepsR152 := by
  unfold Obligations.TheLineBufferKeepsR152
  refine ⟨fun h e => ⟨fun room => join_of_room room e, fun full below => join_of_full full below e,
      fun full most => join_of_owedFull full most e⟩,
    fun s a rest waits high line joins => ?end_of_line, fun h owes => if_pos owes,
    fun s ready => ⟨(cmdGetLink s).2, exec_ready rfl ready⟩,
    fun l s => ⟨startUp_link_empty .power l _ s, startUp_link_empty .reset l _ s⟩⟩
  case end_of_line =>
    rw [exec_cr_joins rest waits high line joins]
    rcases fault : a.fault with _ | _ | _ | _ <;> simp only [Assembly.entry, fault] <;> rfl

end Sys2Proof.Machine
end
